-- ==== Sys2Proof/Word.lean ====
section
/-! DEFINITION. The word types of the line and of the store: bytes, and the fixed widths that the
request table (R202) and the record layouts (R204) use. -/

namespace Sys2Proof

/-- One byte of the line (R200) or of the store (R125). -/
abbrev Byte := BitVec 8

/-- A switch set: the sixteen switches in the order of the switch table, the first in the most
significant bit (R201). -/
abbrev SwitchSet := BitVec 16

/-- A set of notice kinds: kind n is bit n - 1 (R201). -/
abbrev KindSet := BitVec 24

/-- A rod serial: six codes, one per byte, the first in the most significant byte (R201). -/
abbrev Serial := BitVec 48

/-- A tariff name: sixteen codes of six bits, the first in the top six bits (R201). -/
abbrev Name := BitVec 96

/-- A unit name: eight codes of six bits (R201). -/
abbrev UnitName := BitVec 48

end Sys2Proof
end

