-- ==== Sys2Proof/Config.lean ====
section
/-! DEFINITION. What the part fixes: its timing figures and limits, and the values that the spec
leaves open, which are opaque constants. -/

namespace Sys2Proof.Config

/-- Stability time of a switch input, ms (R1); also the time for which a switch is held still to be
acquired (R2). -/
def stabilityMs : Nat := 20
/-- The latest moment, after the start, at which a switch is acquired at its raw value (R2). -/
def acquisitionLimitMs : Nat := 200
/-- The rotating indication's time, ms (R5). -/
def rotatingMs : Nat := 2000
/-- The top of the head's travel, mm (R6). -/
def headTop : Nat := 7500
/-- The analogue sample period, ms (R9). -/
def samplePeriodMs : Nat := 100
/-- The gap timer's start in STARTING and the upper end of its clamp, ms (R18). -/
def gapTopMs : Nat := 20000
/-- The lower end of the gap timer's clamp, ms (R18). -/
def gapLowMs : Nat := 2000
/-- The most strokes of one pump that a window counts (R21). -/
def windowStrokeTop : Nat := 60
/-- The top of the cumulative pumped volume, mL (R22). -/
def cumTop : Nat := 281474976710655
/-- The clamp of a window's delta, mL (R22). -/
def deltaTop : Int := 500000
/-- The bound of a window's declared additions, mL (R23). -/
def declaredTop : Int := 100000000
/-- The bound of one declared volume, mL (R23). -/
def declareTop : Int := 2000000
/-- The top of the suspect, clear and disagree counts (R26, R27, R28). -/
def countTop : Nat := 10
/-- The capture's length, ms (R35). -/
def captureMs : Nat := 60000
/-- Entries of the rod registry (R44). -/
def registrySize : Nat := 160
/-- Positions of the string (R51). -/
def stringTop : Nat := 128
/-- Slots of the carousel (3.5). -/
def slotCount : Nat := 40
/-- The base and the per-step part of an index motion's timeout, and the wait for INDEX LOCKED, ms
(R64, R71). -/
def indexBaseMs : Nat := 4000
def indexStepMs : Nat := 2000
/-- The stall timer of a driller stage, ms (R82). -/
def stallMs : Nat := 300000
/-- The depth tolerance of an entry to LIVE and the reaming margin, mm (R106, R145). -/
def depthTolerance : Nat := 100
/-- Entries of the sample queue (R118). -/
def sampleQueueTop : Nat := 16
/-- Places of the writer queue (R130). -/
def writerQueueTop : Nat := 4
/-- Blocks of a sector, sectors of the store, and blocks of the store (R125). -/
def sectorBlocks : Nat := 256
def sectorCount : Nat := 32
def storeBlocks : Nat := 8192
/-- Times of an erase, a block program and the read of one block, ms (R125). -/
def eraseMs : Nat := 350
def programMs : Nat := 2
def readMs : Nat := 1
/-- The failed verifies at which a record is lost (R137). -/
def attemptTop : Nat := 3
/-- The greatest 32-bit number: the top of the clock, of sequence and ticket numbers and of the
32-bit counts (R44, R126, R149, R166, R191). -/
def top32 : Nat := 4294967295
/-- The greatest charge and total, cents (R168). -/
def moneyTop : Nat := 99999999999
/-- Places of the ticket list (R172). -/
def ticketTop : Nat := 8
/-- The silence timer and the time between two bytes of a frame, ms (R177, R178). -/
def silenceMs : Nat := 30000
def interByteMs : Nat := 50
/-- The longest payload (R178) and the places of the receive buffer (R179). -/
def payloadTop : Nat := 240
def rxTop : Nat := 2
/-- The start value of a frame (R200). -/
def startValue : Nat := 0xA5
/-- How many hand-overs between blocks one step carries out; one that is left over stands for the
next step (log 7). -/
def settleFuel : Nat := 100

/-- DESIGN CHOICE (log 6): the part's revision number, which R187 reports and the spec does not
give. -/
opaque revision : Nat

/-- DESIGN CHOICE (log 6): the reference level of a capture that ends with no sample, whose quotient
R36 does not state. -/
opaque emptyCapture : Int

/-- DESIGN CHOICE (log 6): the interval number that follows 65,535, the end of the range of R111. -/
opaque intervalAfterTop : Nat → Nat

end Sys2Proof.Config
end

