-- ==== Sys2Proof/Syntax.lean ====
section
/-! DEFINITION. The commands of the controller: the requests of the rig computer (R202) and the
events of the rig, the line, the store and the supply. -/

namespace Sys2Proof

/-- The sixteen switch inputs, in the order of the table of 1.1. -/
inductive Switch where
  | mastLocked | clampOpen | clampClosed | wrenchOpen | wrenchGripped | armHome | armAtCentre
  | armAtCarousel | indexLocked | headConnected | diverterOpen | diverterClosed | pitHigh | pitLow
  | returnPaddle | stopChainHealthy
  deriving DecidableEq, Repr

/-- The two mud pumps (2.1). -/
inductive Pump where
  | one | two
  deriving DecidableEq, Repr

/-- What the head encoder's two channels did: a step to the next state of the cycle, to the previous
one, or a change of both at once (R6, R7). -/
inductive EncoderStep where
  | up | down | both
  deriving DecidableEq, Repr

/-- Why a frame received while LOCKED fails its checks (R178). -/
inductive DropCause where
  | framingError | tooLong | checkDiffers
  deriving DecidableEq, Repr

/-- One cell of a block that reads otherwise than it is held: its offset in the block (0 to 63), and
what it reads as at the normal and at the margin level (R125). -/
structure CellRead where
  offset : Nat
  normal : Byte
  margin : Byte
  deriving DecidableEq, Repr

/-- The payload of WRITE TARIFF as 12.3 lays it out. -/
structure TariffWire where
  id : Byte
  name : Name
  bandCount : Byte
  itemSet : BitVec 16
  /-- The ten category rates in the order of R159. -/
  rates : List (BitVec 24)
  /-- Each band's bound and rate. -/
  bands : List (BitVec 24 × BitVec 24)
  /-- For each item of the set, in ascending code, its unit name and price. -/
  items : List (UnitName × BitVec 24)
  deriving DecidableEq, Repr

/-- A request as the rows of R202 give it, its fields of the widths given there. -/
inductive Request where
  | identify
  | setParameter (number : Byte) (value : BitVec 32)
  | getParameter (number : Byte)
  | setNoticeMask (kinds : KindSet)
  | ackNotices (kinds : KindSet)
  | clearAll
  | setClock (second : BitVec 32)
  | setWatch (select pattern : SwitchSet)
  | readSignals
  | setPump (pump : Byte) (displacement efficiency : BitVec 16)
  | setReturnMeter (k : BitVec 16)
  | declareAddition (volume : BitVec 32)
  | readBalance (part : Byte)
  | acceptLatch (latch : Byte)
  | enterHoleWatch
  | leaveHoleWatch
  | registerRod (serial : Serial) (length : BitVec 16) (sizeClass : Byte)
  | retireRod (serial : Serial)
  | loadSlot (serial : Serial) (slot : Byte)
  | unloadSlot (slot : Byte)
  | placeRod (dest : Byte)
  | readTally (view : Byte) (start : BitVec 48)
  | addRod (slot : Byte)
  | removeRod (slot : Byte)
  | startTrip (direction count : Byte)
  | stopTrip
  | resume
  | abort
  | manualMove (function direction : Byte) (jog : BitVec 16)
  | diverter (direction : Byte)
  | markInterval
  | annotate (interval : BitVec 16) (lithology : Byte) (bag : BitVec 16) (remark flags : Byte)
  | readIntervals (start : BitVec 16)
  | readLog (sequence : BitVec 32) (part : Byte)
  | writeTariff (t : TariffWire)
  | readTariff (id part : Byte)
  | openJob (job : BitVec 24) (tariff : Byte) (depth : BitVec 32)
  | holdJob
  | releaseJob
  | declareBreakdown
  | endBreakdown
  | addMaterial (item : Byte) (quantity : BitVec 16)
  | issueTicket
  | closeJob
  | readTicket (ticket : BitVec 32) (part : Byte)
  | collectTicket (ticket : BitVec 32)
  | readAccruals (part : Byte)
  deriving DecidableEq, Repr

/-- The commands: one constructor per row of the table. `dt` is the model's operand: the
milliseconds since the command before (log 2). `tag` is the request frame's tag (R200). -/
inductive Instr where
  | identify (dt : Nat) (tag : Byte)
  | setParameter (dt : Nat) (tag number : Byte) (value : BitVec 32)
  | headHeightPreset (dt : Nat) (tag : Byte) (value : BitVec 32)
  | indexPreset (dt : Nat) (tag : Byte) (value : BitVec 32)
  | depthOffset (dt : Nat) (tag : Byte) (value : BitVec 32)
  | getParameter (dt : Nat) (tag number : Byte)
  | setNoticeMask (dt : Nat) (tag : Byte) (kinds : KindSet)
  | ackNotices (dt : Nat) (tag : Byte) (kinds : KindSet)
  | clearAll (dt : Nat) (tag : Byte)
  | setClock (dt : Nat) (tag : Byte) (second : BitVec 32)
  | setWatch (dt : Nat) (tag : Byte) (select pattern : SwitchSet)
  | readSignals (dt : Nat) (tag : Byte)
  | setPump (dt : Nat) (tag pump : Byte) (displacement efficiency : BitVec 16)
  | setReturnMeter (dt : Nat) (tag : Byte) (k : BitVec 16)
  | declareAddition (dt : Nat) (tag : Byte) (volume : BitVec 32)
  | readBalance (dt : Nat) (tag part : Byte)
  | acceptLatch (dt : Nat) (tag latch : Byte)
  | enterHoleWatch (dt : Nat) (tag : Byte)
  | leaveHoleWatch (dt : Nat) (tag : Byte)
  | registerRod (dt : Nat) (tag : Byte) (serial : Serial) (length : BitVec 16) (sizeClass : Byte)
  | retireRod (dt : Nat) (tag : Byte) (serial : Serial)
  | loadSlot (dt : Nat) (tag : Byte) (serial : Serial) (slot : Byte)
  | unloadSlot (dt : Nat) (tag slot : Byte)
  | placeRod (dt : Nat) (tag dest : Byte)
  | readTally (dt : Nat) (tag view : Byte) (start : BitVec 48)
  | addRod (dt : Nat) (tag slot : Byte)
  | removeRod (dt : Nat) (tag slot : Byte)
  | startTrip (dt : Nat) (tag direction count : Byte)
  | stopTrip (dt : Nat) (tag : Byte)
  | resume (dt : Nat) (tag : Byte)
  | abort (dt : Nat) (tag : Byte)
  | manualMove (dt : Nat) (tag function direction : Byte) (jog : BitVec 16)
  | diverter (dt : Nat) (tag direction : Byte)
  | markInterval (dt : Nat) (tag : Byte)
  | annotate (dt : Nat) (tag : Byte) (interval : BitVec 16) (lithology : Byte) (bag : BitVec 16)
      (remark flags : Byte)
  | readIntervals (dt : Nat) (tag : Byte) (start : BitVec 16)
  | readLog (dt : Nat) (tag : Byte) (sequence : BitVec 32) (part : Byte)
  | writeTariff (dt : Nat) (tag : Byte) (t : TariffWire)
  | readTariff (dt : Nat) (tag id part : Byte)
  | openJob (dt : Nat) (tag : Byte) (job : BitVec 24) (tariff : Byte) (depth : BitVec 32)
  | holdJob (dt : Nat) (tag : Byte)
  | releaseJob (dt : Nat) (tag : Byte)
  | declareBreakdown (dt : Nat) (tag : Byte)
  | endBreakdown (dt : Nat) (tag : Byte)
  | addMaterial (dt : Nat) (tag item : Byte) (quantity : BitVec 16)
  | issueTicket (dt : Nat) (tag : Byte)
  | closeJob (dt : Nat) (tag : Byte)
  | readTicket (dt : Nat) (tag : Byte) (ticket : BitVec 32) (part : Byte)
  | collectTicket (dt : Nat) (tag : Byte) (ticket : BitVec 32)
  | readAccruals (dt : Nat) (tag part : Byte)
  | unknownKindRequest (dt : Nat) (tag kind : Byte) (payload : List Byte)
  | huntByte (dt : Nat) (value : Byte) (framingError : Bool)
  | frameReceived (dt : Nat) (kind tag : Byte) (payload : List Byte)
  | interByteTimeout (dt : Nat)
  | silenceTimerExpiry (dt : Nat)
  | transmitComplete (dt : Nat)
  | switchRawChange (dt : Nat) (sw : Switch) (on : Bool)
  | switchChangeTaken (dt : Nat) (sw : Switch)
  | acquisitionEnd (dt : Nat)
  | strokePulse (dt : Nat) (pump : Pump)
  | returnMeterPulse (dt : Nat)
  | rotationPulse (dt : Nat)
  | headEncoderStep (dt : Nat) (dir : EncoderStep)
  | rotatingIndicationExpiry (dt : Nat)
  | analogueSample (dt pit pressure torque : Nat)
  | pumpGapTimerExpiry (dt : Nat) (pump : Pump)
  | secondTick (dt : Nat)
  | windowClose (dt : Nat)
  | flowCheckTimerExpiry (dt : Nat)
  | captureTimerExpiry (dt : Nat)
  | motionTimeout (dt : Nat)
  | stallTimerExpiry (dt : Nat)
  | graceExpiry (dt : Nat)
  | eraseComplete (dt : Nat)
  | blockProgramComplete (dt : Nat)
  | voidComplete (dt : Nat)
  | verifyBlockRead (dt : Nat) (cells : List CellRead)
  | coldStartScanEnd (dt : Nat) (cells : List (Nat × CellRead))
  | powerFailWarning (dt : Nat)
  | powerUp (dt secondsOff : Nat) (batteryGood : Bool)
  | frameDropped (dt : Nat) (cause : DropCause)
  deriving DecidableEq, Repr

end Sys2Proof
end

