-- ==== Sys2Proof/Machine/State.lean ====
section
/-! DEFINITION. The state of the controller: one structure per block (0.3), each with the state its
chapter gives it, the queue of commands, and the value of all of it right after reset. -/

namespace Sys2Proof.Machine

/-! ## Signal front end (chapter 1) -/

/-- The three states of an analogue input (R10). -/
inductive AState where
  | acquiring | good | faulted
  deriving DecidableEq, Repr

/-- An analogue input: its state, its value and its count of consecutive good samples (R10). -/
structure Analogue where
  st : AState
  value : Option Nat
  goods : Nat
  deriving DecidableEq, Repr

/-- The three analogue inputs (1.3). -/
inductive AInput where
  | pitLevel | pumpPressure | headTorque
  deriving DecidableEq, Repr

/-- The causes of an encoder fault (R6). -/
inductive EncCause where
  | unreferenced | quadrature | range
  deriving DecidableEq, Repr

/-- The encoder state (R6). -/
inductive Enc where
  | good
  | fault (cause : EncCause)
  deriving DecidableEq, Repr

/-- A watch group (R12). Its status is MATCH exactly when its mismatch set is empty. -/
structure Group where
  sel : SwitchSet
  pat : SwitchSet
  mism : SwitchSet
  flag : Bool
  deriving DecidableEq, Repr

/-- The numbers of the four watch groups (1.4). -/
inductive GroupNo where
  | g0 | g1 | g2 | g3
  deriving DecidableEq, Repr

/-- The signal front end. -/
structure Sfe where
  /-- The raw inputs as the wiring drives them (R1). -/
  raw : SwitchSet
  /-- The debounced values (R1); off until acquired (R2). -/
  debounced : SwitchSet
  /-- The switches acquired since the start (R2). -/
  acquired : SwitchSet
  /-- Per switch, in table order, the remaining ms of its stability timer (R1), or of its 20 ms
  hold while it is not yet acquired (R2). -/
  stab : List (Option Nat)
  /-- Milliseconds since the start, up to the acquisition limit (R2). -/
  startAge : Nat
  /-- The acquisition of the sixteen switches has ended (R2). -/
  acquisitionEnded : Bool
  /-- The millisecond count, wrapping at 2^32 (R3). -/
  ms : Nat
  stroke1 : Nat
  stroke2 : Nat
  retCount : Nat
  rotCount : Nat
  /-- The rotating indication: set while a timer is held, with the ms left (R5). -/
  rotTimer : Option Nat
  /-- The head height in mm, or absent (R6). -/
  head : Option Nat
  enc : Enc
  pit : Analogue
  press : Analogue
  torque : Analogue
  /-- The sample timer (R9). -/
  sampleTimer : Option Nat
  g0 : Group
  g1 : Group
  g2 : Group
  g3 : Group
  deriving DecidableEq, Repr

/-! ## Circulation monitor (chapter 2) -/

/-- A pump's state (2.1). -/
inductive PumpSt where
  | stopped | starting | running
  deriving DecidableEq, Repr

/-- A pump record (2.1); the strokes of the window in progress stand in the window. -/
structure PumpRec where
  st : PumpSt
  last : Option Nat
  interval : Option Nat
  gap : Option Nat
  remainder : Nat
  deriving DecidableEq, Repr

/-- The parameter values in force for a window (R20, R21). -/
structure Force where
  w : Nat
  n : Nat
  lossThr : Nat
  gainThr : Nat
  m : Nat
  tol : Nat
  area : Nat
  disp1 : Nat
  eff1 : Nat
  disp2 : Nat
  eff2 : Nat
  k : Nat
  deriving DecidableEq, Repr

/-- The window in progress (R21): the seconds left, and what has been counted into it. -/
structure Window where
  force : Force
  left : Nat
  strokes1 : Nat
  over1 : Bool
  strokes2 : Nat
  over2 : Bool
  returns : Nat
  declared : Int
  deriving DecidableEq, Repr

/-- Where a window's delta was clamped (R22). -/
inductive ClampMark where
  | bottom | top | unclamped
  deriving DecidableEq, Repr

/-- An entry of the balance ring (R24). -/
structure RingEntry where
  d : Int
  clamp : ClampMark
  pit : Option Nat
  declared : Int
  deriving DecidableEq, Repr

/-- The monitor states (2.3). -/
inductive Mon where
  | idle | settling | watching | flowCheck | watchEntry | holeWatch
  deriving DecidableEq, Repr

/-- The last window record (R22). -/
structure WinRec where
  strokes1 : Nat
  over1 : Bool
  strokes2 : Nat
  over2 : Bool
  in1 : Nat
  in2 : Nat
  ret : Nat
  d : Int
  clamp : ClampMark
  declared : Int
  pit : Option Nat
  mon : Mon
  deriving DecidableEq, Repr

/-- The balance condition (R26). -/
inductive Balance where
  | normal | lossSuspect | gainSuspect
  deriving DecidableEq, Repr

/-- The two latches (R25). -/
inductive LatchName where
  | loss | gain
  deriving DecidableEq, Repr

/-- A latch's source (R25). -/
inductive LatchSrc where
  | balance | flowCheck | idleFlow | drift
  deriving DecidableEq, Repr

/-- A set latch: its source and set second (R25), and the figure that set it, which the events of R41
repeat. -/
structure Latch where
  src : LatchSrc
  sec : Nat
  figure : Int
  deriving DecidableEq, Repr

/-- Why a latch cleared (R25). -/
inductive ClearCause where
  | automatic | accepted
  deriving DecidableEq, Repr

/-- The GAIN latch's divert status (R41). -/
inductive Divert where
  | requested | closed | failed | noDivert
  deriving DecidableEq, Repr

/-- A flow check's result (2.3). -/
inductive FlowResult where
  | passed | failed | notCompleted | noCheck
  deriving DecidableEq, Repr

/-- Why a hole-watch entry aborts (R37). -/
inductive AbortCause where
  | stroke | returnFlow | switch | pitFault
  deriving DecidableEq, Repr

/-- The circulation monitor. -/
structure Cm where
  pump1 : PumpRec
  pump2 : PumpRec
  win : Option Window
  lastWin : Option WinRec
  mon : Mon
  cond : Balance
  /-- Oldest entry first (R24). -/
  ring : List RingEntry
  sum : Int
  lossSus : Nat
  gainSus : Nat
  lossClr : Nat
  gainClr : Nat
  disagree : Nat
  lossLatch : Option Latch
  gainLatch : Option Latch
  divert : Divert
  cum : Nat
  fcResult : FlowResult
  fcSecond : Option Nat
  fcVolume : Option Nat
  fcTimer : Option Nat
  fcVol : Nat
  settle : Nat
  /-- Newest second first (R33). -/
  span : List Nat
  /-- Return pulses of the second in progress, counted for the idle flow span (R33). -/
  secPulses : Nat
  capSum : Nat
  capCount : Nat
  capTimer : Option Nat
  entryVol : Nat
  ref : Option Int
  hiStep : Int
  loStep : Int
  /-- PIT LEVEL values delivered since the previous tick: sum, count, and whether any sample was
  faulted (R38). -/
  pitSum : Nat
  pitCount : Nat
  pitBad : Bool
  deriving DecidableEq, Repr

/-! ## Rods, registry and carousel (chapter 3) -/

/-- A rod's location with its string position or slot (R44). -/
inductive Loc where
  | string (pos : Nat)
  | slot (n : Nat)
  | arm | rack | retired
  deriving DecidableEq, Repr

/-- A registry entry in use (R44). -/
structure Rod where
  serial : Serial
  length : Nat
  cls : Nat
  loc : Loc
  conns : Nat
  dist : Nat
  worn : Bool
  regSec : Nat
  deriving DecidableEq, Repr

/-- A reservation's owner and intent (R52). -/
inductive Owner where
  | handling | loader
  deriving DecidableEq, Repr

inductive Intent where
  | take | receive
  deriving DecidableEq, Repr

/-- A slot of the carousel table (R52); rods are named by entry number. -/
inductive Slot where
  | empty
  | loaded (rod : Nat)
  | reserved (owner : Owner) (intent : Intent) (rod : Nat)
  deriving DecidableEq, Repr

/-- The direction in which the carousel steps (R53). -/
inductive StepDir where
  | ascending | descending
  deriving DecidableEq, Repr

/-- The loader's operation and phase (3.6). -/
inductive LoadKind where
  | load | unload
  deriving DecidableEq, Repr

inductive LoadPhase where
  | waiting | requested
  deriving DecidableEq, Repr

/-- The loader record of an operation in progress (3.6). -/
structure LoadOp where
  kind : LoadKind
  slot : Nat
  rod : Nat
  phase : LoadPhase
  deriving DecidableEq, Repr

/-- Why a rod's worn mark was set (R48, R49, R50). -/
inductive WornCause where
  | connections | distance | limitChange
  deriving DecidableEq, Repr

/-- The rod registry and carousel table. -/
structure Rrc where
  /-- 160 entries, FREE where none (R44). -/
  registry : List (Option Rod)
  /-- Oldest first (R44). -/
  retired : List Nat
  /-- Position 1 first: entry number and peak make-up torque (R51). -/
  string : List (Nat × Option Nat)
  arm : Option Nat
  slots : List Slot
  index : Nat
  stepDir : StepDir
  stepMark : Bool
  hold : Bool
  loader : Option LoadOp
  deriving DecidableEq, Repr

/-! ## Auxiliary hydraulic arbiter (chapter 4) -/

/-- The four clients in chain order (chapter 4). -/
inductive Client where
  | wellControl | handling | loader | manual
  deriving DecidableEq, Repr

/-- The five functions (R64). -/
inductive Func where
  | clamp | wrench | arm | index | diverter
  deriving DecidableEq, Repr

/-- The first or the second direction that R64 lists for a function. -/
inductive Dir where
  | first | second
  deriving DecidableEq, Repr

/-- A request's target (R63): a switch, an index slot, or a jog's end, with its end switch where the
function has one (R73). -/
inductive Target where
  | switch (sw : Switch)
  | slot (n : Nat)
  | jog (endSwitch : Option Switch)
  deriving DecidableEq, Repr

/-- A request record (R63). -/
structure Req where
  client : Client
  fn : Func
  dir : Dir
  target : Target
  /-- The timeout remaining, absent until first granted (R63). -/
  left : Option Nat
  /-- The route of an index motion: direction and step count (R63, R54). -/
  route : Option (StepDir × Nat)
  /-- The jog length (R73). -/
  jogMs : Nat
  /-- Granted, and waiting for INDEX LOCKED before its valve is driven, with the remaining ms that
  the motion takes up again afterward, or none for a motion not yet driven (R71). -/
  lockWait : Option (Option Nat)
  /-- The next step that is counted is this index motion's own: its valve is driven, or the step that
  it began still ran when it was suspended (R73; log 29). -/
  ownStep : Bool
  /-- An index jog's own step has been counted: its end is met (R73). -/
  moved : Bool
  /-- Begun by a DIVERTER message (R74), and followed as the divert outcome (R41). -/
  byMessage : Bool
  byDivert : Bool
  deriving DecidableEq, Repr

/-- How a motion that completes has ended: at its target, or by a jog's two ends (R73). -/
inductive MotionEnd where
  | target | jogEnd | endSwitch
  deriving DecidableEq, Repr

/-- Why a motion failed (R69, R72). -/
inductive FailCause where
  | timeout | guard
  deriving DecidableEq, Repr

/-- The auxiliary hydraulic arbiter. -/
structure Aha where
  holder : Option Req
  /-- The top of the stack first (R63). -/
  stack : List Req
  /-- In chain order (R63). -/
  waiting : List Req
  /-- The one valve driven and its direction; every other valve stands centred (R66). -/
  valve : Option (Func × Dir)
  deriving DecidableEq, Repr

/-! ## Handling sequencer (chapter 5) -/

/-- The sequencer states (R76). -/
inductive Seq where
  | idle | running | waiting | held | faulted | interrupted
  deriving DecidableEq, Repr

inductive Op where
  | addRod | removeRod
  deriving DecidableEq, Repr

/-- The stages of the two operations (R83, R85). -/
inductive Stage where
  | quiet | clamp | unscrew | index | present | make | ret | unclamp | lift | brk | spin | catchRod
  | free | stow | reconnect
  deriving DecidableEq, Repr

/-- The wrench phase of BREAK (R76, R86). -/
inductive WrenchPhase where
  | grip | release
  deriving DecidableEq, Repr

/-- The operation record (R76). -/
structure OpRec where
  op : Op
  rod : Nat
  slot : Nat
  stage : Stage
  begun : Bool
  trip : Bool
  wrench : WrenchPhase
  rotBase : Nat
  peak : Option Nat
  deriving DecidableEq, Repr

/-- The causes OP HELD reports (R82, R91, R92, R93). -/
inductive HeldCause where
  | guard | carousel | pump | stall
  deriving DecidableEq, Repr

/-- The cause kept in HELD, with its mismatch set where it came with one, or in FAULTED the function
and the arbiter's cause (R76). -/
inductive StopCause where
  | held (cause : HeldCause) (mism : Option SwitchSet)
  | fault (fn : Func) (cause : FailCause)
  deriving DecidableEq, Repr

/-- A trip's direction and end reason (R97, R100). -/
inductive TripDir where
  | out | inward
  deriving DecidableEq, Repr

inductive TripEnd where
  | count | stopped | carouselFull | noRod | aborted | fault
  deriving DecidableEq, Repr

/-- The trip record; ACTIVE while it holds no end reason and second (R97, R100). -/
structure TripRec where
  dir : TripDir
  count : Nat
  done : Nat
  stop : Bool
  start : Nat
  ended : Option (TripEnd × Nat)
  deriving DecidableEq, Repr

/-- The handling sequencer. -/
structure Hs where
  seq : Seq
  op : Option OpRec
  cause : Option StopCause
  trip : Option TripRec
  depthHold : Bool
  stall : Option Nat
  deriving DecidableEq, Repr

/-! ## Depth and interval builder (chapter 6) -/

/-- The depth state (R104). -/
inductive DState where
  | live | held | fault
  deriving DecidableEq, Repr

/-- An interval's fields (R111). -/
structure Interval where
  job : Nat
  number : Nat
  top : Nat
  length : Nat
  boundary : Nat
  openSec : Nat
  drillSecs : Nat
  pSum : Nat
  pCount : Nat
  peak : Option Nat
  loss : Nat
  gain : Nat
  /-- Item code and tenths, in order of first use (R113). -/
  mats : List (Nat × Nat)
  other : Nat
  merged : Bool
  span : Bool
  unsampled : Bool
  powerGap : Bool
  slip : Bool
  lith : Option Nat
  bag : Option Nat
  remark : Option Nat
  final : Bool
  deriving DecidableEq, Repr

/-- A sample queue entry's state, with its due and grace expiry seconds (R118). -/
inductive EntrySt where
  | awaiting
  | sampleDue (due grace : Nat)
  deriving DecidableEq, Repr

/-- A sample queue entry (R118). -/
structure Entry where
  iv : Interval
  bottom : Nat
  closeSec : Nat
  rop : Option Nat
  cumClose : Nat
  lag : Nat
  st : EntrySt
  /-- A tick has read the clock at or after the grace expiry second, and the expiry is still to be
  taken (R119). -/
  graceDue : Bool
  /-- The grace expiry has been reached (R119). -/
  graceOver : Bool
  flush : Bool
  deriving DecidableEq, Repr

/-- The depth and interval builder. -/
structure Dib where
  dstate : DState
  depth : Nat
  unset : Bool
  offset : Int
  encFaulted : Bool
  hwm : Nat
  jobStart : Nat
  jobNo : Option Nat
  nextInterval : Nat
  cumLast : Nat
  openIv : Option Interval
  queue : List Entry
  headLast : Option Nat
  lenLast : Nat
  deriving DecidableEq, Repr

/-! ## Record writer and store (chapter 7) -/

/-- The record kinds (R126). -/
inductive RKind where
  | jobOpened | interval | ticket | lost | recovery
  deriving DecidableEq, Repr

/-- A record as handed over and numbered (R126, R130), with its fresh-sector mark and the item number
a LOST record takes from it (R138). -/
structure Record where
  kind : RKind
  seq : Nat
  job : Nat
  blocks : Nat
  ts : Nat
  body : List Byte
  fresh : Bool
  item : Option Nat
  deriving DecidableEq, Repr

/-- One block of the store that is not erased: its 64 bytes as they read at the normal and at the
margin level (R125). -/
structure Block where
  addr : Nat
  normal : List Byte
  margin : List Byte
  deriving DecidableEq, Repr

/-- A sector's state with its first sequence (R128). -/
inductive Sector where
  | erased
  | inUse (first : Option Nat)
  | reErase
  deriving DecidableEq, Repr

/-- Where the write in hand comes from (R132). -/
inductive Source where
  | queue | slot
  deriving DecidableEq, Repr

/-- Why a record is being voided: a failed verify (R137), or a cut-short attempt (R142). -/
inductive VoidFor where
  | failure | cutShort
  deriving DecidableEq, Repr

/-- The marks of the power-fail warning on the write in hand (R141). -/
inductive WMark where
  | unverified
  | rewrite (why : VoidFor)
  deriving DecidableEq, Repr

/-- The write in hand (R132); its record is the head of the writer queue or the one in the verify
slot, as its source says. -/
structure Write where
  src : Source
  attempts : Nat
  start : Nat
  done : Nat
  /-- The void in progress, if one is (R137). -/
  voiding : Option VoidFor
  mark : Option WMark
  /-- Verify progress (R135): blocks read, weak rows, data bytes as read. -/
  readBlocks : Nat
  weak : Nat
  readData : List Byte
  deriving DecidableEq, Repr

/-- The writer's states (R132), ERASING with the sector being erased. -/
inductive WState where
  | idle
  | erasing (sector : Nat)
  | programming
  | verifying
  deriving DecidableEq, Repr

/-- A readable record (R127): its header figures and its first block. -/
structure Readable where
  addr : Nat
  kind : RKind
  seq : Nat
  job : Nat
  blocks : Nat
  ts : Nat
  deriving DecidableEq, Repr

/-- The phases of the writer's warm recovery (R142): step 1, and the steps after it. -/
inductive Recovering where
  | clearing | finishing
  deriving DecidableEq, Repr

/-- What STORE FAULT reports (R130, R138). -/
inductive StoreCause where
  | lostWritten | abandoned | sequenceExhausted
  deriving DecidableEq, Repr

/-- The record writer and store. -/
structure Rws where
  /-- Blocks that do not read erased, addresses rising (R125). -/
  store : List Block
  /-- Sectors whose erase was cut short (R129, R143). -/
  halfErased : List Nat
  /-- Oldest first (7.3). -/
  queue : List Record
  slot : Option Record
  write : Option Write
  wst : WState
  timer : Option Nat
  sectors : List Sector
  /-- Sector and block of the head as one number (R128). -/
  head : Nat
  nextSeq : Nat
  earliest : Option Nat
  /-- In rising sequence order (R127). -/
  readable : List Readable
  /-- A hand-over may be taken (R130, R141). -/
  accepting : Bool
  scanning : Bool
  recovering : Option Recovering
  /-- STORE FAULT with SEQUENCE EXHAUSTED has been raised since the last cold start (R130). -/
  exhausted : Bool
  deriving DecidableEq, Repr

/-! ## Billing unit (chapters 8 and 9) -/

/-- The ten categories, in the order of R159. -/
inductive Category where
  | drilling | reaming | connection | tripping | circulating | remediation | holeWatch | standby
  | breakdown | held
  deriving DecidableEq, Repr

/-- The job states (R162). -/
inductive JobSt where
  | noJob | opened | suspended | closing
  deriving DecidableEq, Repr

/-- An item of a tariff (R159). -/
structure Item where
  code : Nat
  unit : UnitName
  price : Nat
  deriving DecidableEq, Repr

/-- A tariff (R159). -/
structure Tariff where
  id : Nat
  name : Name
  /-- Bound and rate of each band. -/
  bands : List (Nat × Nat)
  rates : List Nat
  items : List Item
  deriving DecidableEq, Repr

/-- An accumulator set (R149). -/
structure Accum where
  footage : List Nat
  time : List Nat
  mats : List Nat
  deriving DecidableEq, Repr

/-- The job record (R162); the figures stay after the job has returned to NONE. -/
structure JobRec where
  number : Nat
  tariff : Nat
  start : Nat
  openSec : Nat
  closeSec : Option Nat
  deriving DecidableEq, Repr

inductive TicketKind where
  | interim | final
  deriving DecidableEq, Repr

/-- A line of a ticket (R166): its quantity, rate and charge, under its band, category or item. -/
inductive LineOf where
  | band (number bound : Nat)
  | time (cat : Category)
  | item (code : Nat) (unit : UnitName)
  deriving DecidableEq, Repr

structure Line where
  what : LineOf
  qty : Nat
  rate : Nat
  charge : Nat
  deriving DecidableEq, Repr

/-- A ticket (R166); its record state is PENDING while it holds no sequence number. -/
structure Ticket where
  job : Nat
  number : Nat
  kind : TicketKind
  tariff : Nat
  fromSec : Nat
  toSec : Nat
  lines : List Line
  total : Nat
  saturated : Bool
  recSeq : Option Nat
  deriving DecidableEq, Repr

/-- A record in the outbox (R165): a JOB OPENED record, or the TICKET record of a ticket. -/
inductive OutRec where
  | jobOpened (job : Nat) (body : List Byte)
  | ticket (number job : Nat) (body : List Byte)
  deriving DecidableEq, Repr

/-- The billing unit. -/
structure Bu where
  category : Category
  /-- The breakdown mark, with its set second (R153). -/
  breakdown : Option Nat
  jobSt : JobSt
  job : Option JobRec
  openSecs : Nat
  finalWaiting : Bool
  totals : Accum
  since : Accum
  sinceFrom : Option Nat
  lossCat : Option Category
  tariffs : List (Option Tariff)
  tickets : List Ticket
  nextTicket : Nat
  outbox : List OutRec
  deriving DecidableEq, Repr

/-! ## Link controller (chapter 10) -/

/-- The six rates in ascending order (10.1). -/
inductive Rate where
  | r9600 | r19200 | r38400 | r57600 | r115200 | r230400
  deriving DecidableEq, Repr

/-- A frame (R200): kind, tag and payload; length and check follow from them. -/
structure Frame where
  kind : Byte
  tag : Byte
  payload : List Byte
  deriving DecidableEq, Repr

/-- What the transmitter sends: a notice, a reply, or the reply to CLEAR ALL (R180, R189). -/
inductive TxWhat where
  | notice | reply | clearReply
  deriving DecidableEq, Repr

structure TxFrame where
  what : TxWhat
  frame : Frame
  deriving DecidableEq, Repr

/-- The kinds of start (R191). -/
inductive StartKind where
  | cold | warm
  deriving DecidableEq, Repr

/-- The results of a DIVERTER motion (R74). -/
inductive DivResult where
  | done | timeout | withdrawn
  deriving DecidableEq, Repr

/-- The results of a jog (R73); the last is a jog whose wait for INDEX LOCKED runs out (log 13). -/
inductive JogResult where
  | jogEnd | endSwitch | guard | timeout
  deriving DecidableEq, Repr

/-- The details of the notices, one form per raising rule (10.4). -/
inductive Detail where
  | pumpChange (pump : Pump) (st : PumpSt) (rate : Nat)
  | loss (src : LatchSrc) (figure : Int)
  | gain (src : LatchSrc) (figure : Int) (status : Option Divert)
  | latchCleared (latch : LatchName) (cause : ClearCause)
  | flowCheck (result : FlowResult) (second volume : Nat)
  | pitDisagree (p d diff : Int)
  | groupMismatch (mism : SwitchSet) (stamp : Nat)
  | driftStep (up : Bool) (level : Nat) (ref step : Int)
  | driftSwitch (mism : SwitchSet)
  | entryAborted (cause : AbortCause)
  | opDone (op : Op) (serial : Serial) (slot rods : Nat)
  | opAborted (op : Op) (stage : Stage) (serial : Serial) (arm : Option Nat)
  | jogDone (fn : Func) (dir : Dir) (result : JogResult)
  | diverterDone (dir : Dir) (result : DivResult)
  | opHeld (op : Op) (stage : Stage) (cause : HeldCause) (mism : Option SwitchSet)
  | opFault (op : Op) (stage : Stage) (fn : Func) (cause : FailCause)
  | tripEnded (dir : TripDir) (count done : Nat) (reason : TripEnd)
  | loadDone (kind : LoadKind) (serial : Serial) (slot : Nat) (fail : Option FailCause)
  | rodWorn (serial : Serial) (cause : WornCause) (conns dist : Nat)
  | depthSlip (diff offset : Int) (depth : Nat)
  | depthFault (cause : Option EncCause) (depth : Nat) (state : DState)
  | intervalClosed (job number top bottom : Nat) (rop press : Option Nat) (flags : Byte)
  | sampleDue (number bottom second : Nat)
  | storeFault (cause : StoreCause) (kind : Option RKind) (seq : Option Nat)
  | storeWeak (kind : RKind) (seq rows : Nat)
  | ticketReady (job number : Nat) (kind : TicketKind) (total : Nat) (saturated : Bool)
  | sensorFault (input : AInput) (faulted : Bool) (value : Option Nat)
  | poweredCold
  | poweredWarm (gap : Nat) (cat : Option Category) (seq : Seq) (op : Option (Op × Stage))
      (recSeq : Option Nat)
  deriving DecidableEq, Repr

inductive NoticeSt where
  | clear | waiting | sent
  deriving DecidableEq, Repr

/-- One kind of the notice set (R183). -/
structure Notice where
  st : NoticeSt
  again : Bool
  detail : Option Detail
  count : Nat
  deriving DecidableEq, Repr

/-- The link controller. -/
structure Lc where
  locked : Bool
  trial : Rate
  lastRate : Rate
  silence : Option Nat
  /-- The bytes after the start byte of the frame in reception while HUNTING (R176, R178). -/
  collect : Option (List Byte)
  /-- The time left for the next byte of that frame (R178). -/
  byteTimer : Option Nat
  rx : List Frame
  tx : Option TxFrame
  built : Option TxFrame
  /-- A notice frame that followed a reply is going out; the next request waits for its end
  (R180). -/
  holdTake : Bool
  /-- CLEAR ALL has been taken (R189). -/
  clearing : Bool
  /-- The 24 kinds in code order (10.4). -/
  notices : List Notice
  mask : KindSet
  deriving DecidableEq, Repr

/-! ## Timebase and power supervisor (chapter 11) -/

/-- Held in reset after a warning, in start-up, or running (R192, R195). -/
inductive Phase where
  | off | startUp | running
  deriving DecidableEq, Repr

/-- The body of a RECOVERY record (R197). -/
structure Recovery where
  job : Nat
  lossSec : Option Nat
  startEnd : Nat
  gap : Nat
  gapCat : Option Category
  lossCat : Option Category
  jobSt : JobSt
  seq : Seq
  op : Option (Op × Stage)
  count : Nat
  deriving DecidableEq, Repr

/-- The timebase and power supervisor. -/
structure Tps where
  phase : Phase
  /-- The two reports that end start-up (R195). -/
  inputsReported : Bool
  storeReported : Bool
  clock : Nat
  lossSec : Option Nat
  recoveryPending : Bool
  valid : Bool
  startKind : StartKind
  startEnd : Option Nat
  heldRecovery : Option Recovery
  deriving DecidableEq, Repr

/-! ## The whole machine -/

/-- What one block has handed another and is still to be taken inside the step (log 7): the arbiter's
five reports of each change of a request, and its turning back of a second request (R63), or the
completion of a stage whose condition was found met (R79). -/
inductive Report where
  | granted (r : Req)
  | suspended (r : Req)
  | resumed (r : Req)
  | refused (r : Req)
  | complete (r : Req) (how : MotionEnd)
  | failed (r : Req) (cause : FailCause) (mism : SwitchSet)
  | stageMet (stage : Stage)
  deriving DecidableEq, Repr

/-- The machine's state. -/
structure State where
  sfe : Sfe
  cm : Cm
  rrc : Rrc
  aha : Aha
  hs : Hs
  dib : Dib
  rws : Rws
  bu : Bu
  lc : Lc
  tps : Tps
  /-- Parameters 1 to 27, as stored (12.2). -/
  params : List Int
  reports : List Report
  /-- The commands that wait, first in first out. -/
  pending : List Instr
  deriving DecidableEq, Repr

/-- No event of the spec stops the controller: there is no fault. -/
inductive Fault where
  deriving DecidableEq, Repr

/-- Why a command has no meaning. -/
inductive Refusal where
  /-- Raised by nothing: every command has its meaning. It is safe. -/
  | notModelled (mnemonic : String)
  deriving DecidableEq, Repr

/-! ## Reset -/

/-- An analogue input after a start (R10). -/
def Analogue.reset : Analogue := ⟨.acquiring, none, 0⟩

/-- A watch group after a start (R17). -/
def Group.reset : Group := ⟨0, 0, 0, false⟩

/-- The front end after a start (R17); `raw` is the wiring's. -/
def Sfe.reset (raw : SwitchSet) : Sfe where
  raw := raw
  debounced := 0
  acquired := 0
  stab := List.replicate 16 (some Config.stabilityMs)
  startAge := 0
  acquisitionEnded := false
  ms := 0
  stroke1 := 0
  stroke2 := 0
  retCount := 0
  rotCount := 0
  rotTimer := none
  head := none
  enc := .fault .unreferenced
  pit := .reset
  press := .reset
  torque := .reset
  sampleTimer := none
  g0 := .reset
  g1 := .reset
  g2 := .reset
  g3 := .reset

/-- A pump record after a start (R43). -/
def PumpRec.reset : PumpRec := ⟨.stopped, none, none, none, 0⟩

/-- The monitor after a cold start (R43). For what R43 does not name, the settle count, the running
return volume of a flow check, and the second and volume of a record with no result, see log 4. -/
def Cm.reset : Cm where
  pump1 := .reset
  pump2 := .reset
  win := none
  lastWin := none
  mon := .idle
  cond := .normal
  ring := []
  sum := 0
  lossSus := 0
  gainSus := 0
  lossClr := 0
  gainClr := 0
  disagree := 0
  lossLatch := none
  gainLatch := none
  divert := .noDivert
  cum := 0
  fcResult := .noCheck
  fcSecond := none
  fcVolume := none
  fcTimer := none
  fcVol := 0
  settle := 0
  span := []
  secPulses := 0
  capSum := 0
  capCount := 0
  capTimer := none
  entryVol := 0
  ref := none
  hiStep := 0
  loStep := 0
  pitSum := 0
  pitCount := 0
  pitBad := false

/-- The registry and carousel after a cold start (R62). -/
def Rrc.reset : Rrc where
  registry := List.replicate 160 none
  retired := []
  string := []
  arm := none
  slots := List.replicate 40 .empty
  index := 0
  stepDir := .ascending
  stepMark := false
  hold := false
  loader := none

/-- The arbiter after any start (R75). -/
def Aha.reset : Aha := ⟨none, [], [], none⟩

/-- The sequencer after a cold start (R103). -/
def Hs.reset : Hs := ⟨.idle, none, none, none, false, none⟩

/-- The builder after a cold start (R124); the string length of the empty string is delivered at the
start (R51). -/
def Dib.reset : Dib where
  dstate := .fault
  depth := 0
  unset := true
  offset := 0
  encFaulted := true
  hwm := 0
  jobStart := 0
  jobNo := none
  nextInterval := 1
  cumLast := 0
  openIv := none
  queue := []
  headLast := none
  lenLast := 3000

/-- The record writer as a cold start's scan begins (R143, R144), on an erased store. -/
def Rws.reset : Rws where
  store := []
  halfErased := []
  queue := []
  slot := none
  write := none
  wst := .idle
  timer := none
  sectors := List.replicate 32 .erased
  head := 0
  nextSeq := 1
  earliest := none
  readable := []
  accepting := false
  scanning := true
  recovering := none
  exhausted := false

/-- An accumulator set at zero, with the given number of bands (R149). -/
def Accum.zero (bands : Nat) : Accum where
  footage := List.replicate bands 0
  time := List.replicate 10 0
  mats := List.replicate 16 0

/-- The billing unit after a cold start (R158, R175). -/
def Bu.reset : Bu where
  category := .standby
  breakdown := none
  jobSt := .noJob
  job := none
  openSecs := 0
  finalWaiting := false
  totals := .zero 0
  since := .zero 0
  sinceFrom := none
  lossCat := none
  tariffs := List.replicate 4 none
  tickets := []
  nextTicket := 1
  outbox := []

/-- A kind of the notice set after a cold start (R190). -/
def Notice.reset : Notice := ⟨.clear, false, none, 0⟩

/-- The link controller after a cold start (R190). -/
def Lc.reset : Lc where
  locked := false
  trial := .r9600
  lastRate := .r9600
  silence := none
  collect := none
  byteTimer := none
  rx := []
  tx := none
  built := none
  holdTake := false
  clearing := false
  notices := List.replicate 24 .reset
  mask := BitVec.allOnes 24

/-- The supervisor as a cold start begins (R193, R194, R199). -/
def Tps.reset : Tps where
  phase := .startUp
  inputsReported := false
  storeReported := false
  clock := 0
  lossSec := none
  recoveryPending := false
  valid := false
  startKind := .cold
  startEnd := none
  heldRecovery := none

/-- The defaults of parameters 1 to 27 (12.2). -/
def defaultParams : List Int :=
  [5, 12, 40000, 20000, 3, 30, 20000, 30000, 60000, 8000, 950, 8000, 950, 1000, 50, 0, 0, 3000, 400,
   60000, 0, 8000, 6, 0, 1000, 9800, 600]

/-- The machine right after reset: a cold start has just begun on a part whose store is erased
(R193, R194; logs 3, 4 and 5). -/
def State.reset : State where
  sfe := .reset 0
  cm := .reset
  rrc := .reset
  aha := .reset
  hs := .reset
  dib := .reset
  rws := .reset
  bu := .reset
  lc := .reset
  tps := .reset
  params := defaultParams
  reports := []
  pending := []

/-! ## Replacing one block

Each of these puts a new value in one field and leaves the others; Laws/State.lean says so once for
every pair. -/

def State.setSfe (s : State) (x : Sfe) : State := { s with sfe := x }
def State.setCm (s : State) (x : Cm) : State := { s with cm := x }
def State.setRrc (s : State) (x : Rrc) : State := { s with rrc := x }
def State.setAha (s : State) (x : Aha) : State := { s with aha := x }
def State.setHs (s : State) (x : Hs) : State := { s with hs := x }
def State.setDib (s : State) (x : Dib) : State := { s with dib := x }
def State.setRws (s : State) (x : Rws) : State := { s with rws := x }
def State.setBu (s : State) (x : Bu) : State := { s with bu := x }
def State.setLc (s : State) (x : Lc) : State := { s with lc := x }
def State.setTps (s : State) (x : Tps) : State := { s with tps := x }
def State.setParams (s : State) (x : List Int) : State := { s with params := x }
def State.setReports (s : State) (x : List Report) : State := { s with reports := x }
def State.setPending (s : State) (x : List Instr) : State := { s with pending := x }

end Sys2Proof.Machine
end

