-- ==== Sys2Proof/Machine/Bytes.lean ====
section
/-! DEFINITION. Bytes: numbers on the line and in the store (R201), the frame check (R178), the row
check (R125), the codes of named values (R200, R204) and the bytes of a notice's detail. -/

namespace Sys2Proof.Machine

/-! ## Numbers (R201) -/

/-- A number in `w` bytes, more significant byte first. -/
def be : Nat → Nat → List Byte
  | 0, _ => []
  | w + 1, n => BitVec.ofNat 8 (n / 256 ^ w) :: be w n

/-- A signed number in `w` bytes, two's complement. -/
def beInt (w : Nat) (i : Int) : List Byte := be w (i % (256 ^ w : Nat)).toNat

/-- The number that bytes spell, more significant byte first. -/
def fromBe (l : List Byte) : Nat := l.foldl (fun n b => n * 256 + b.toNat) 0

/-- A field whose absence marker is 0: its range begins at 1. -/
def opt0 (w : Nat) (o : Option Nat) : List Byte := be w (o.getD 0)

/-- A field whose absence marker is all ones: its range begins at 0. -/
def optF (w : Nat) (o : Option Nat) : List Byte := be w (o.getD (256 ^ w - 1))

/-- A mark: 1 for set, 0 for clear (R200). -/
def mark (b : Bool) : List Byte := be 1 (if b then 1 else 0)

/-- A seconds field that may be absent: a flags byte, then the second (log 10). -/
def optSec (o : Option Nat) : List Byte := mark o.isSome ++ be 4 (o.getD 0)

/-- A list of entries, preceded by its one-byte count (R200). -/
def listOf {α : Type} (f : α → List Byte) (l : List α) : List Byte :=
  be 1 l.length ++ l.flatMap f

/-- A switch set in two bytes, a set of notice kinds in three, a serial in six (R201). -/
def setBytes (x : SwitchSet) : List Byte := be 2 x.toNat
def kindBytes (x : KindSet) : List Byte := be 3 x.toNat
def serialBytes (x : Serial) : List Byte := be 6 x.toNat

/-! ## Checks -/

/-- One bit of the frame check (R178): polynomial 1021H, most significant bit first. -/
def crcBit (x : BitVec 16) : BitVec 16 := if x.msb then (x <<< 1) ^^^ 0x1021#16 else x <<< 1

/-- One byte of the frame check. -/
def crcByte (x : BitVec 16) (b : Byte) : BitVec 16 :=
  crcBit (crcBit (crcBit (crcBit (crcBit (crcBit (crcBit (crcBit
    (x ^^^ (b.setWidth 16 <<< 8)))))))))

/-- The frame check over a list of bytes: initial value FFFFH, no final inversion (R178). -/
def crc (l : List Byte) : BitVec 16 := l.foldl crcByte 0xFFFF#16

/-- The bytes that a frame's check covers: length, kind, tag, payload (R178). -/
def Frame.covered (f : Frame) : List Byte :=
  BitVec.ofNat 8 f.payload.length :: f.kind :: f.tag :: f.payload

/-- A frame as it stands on the line (R200). -/
def Frame.bytes (f : Frame) : List Byte :=
  BitVec.ofNat 8 Config.startValue :: (f.covered ++ be 2 (crc f.covered).toNat)

/-- A row's check: the exclusive-or of its data bytes (R125). -/
def xorAll (l : List Byte) : Byte := l.foldl (· ^^^ ·) 0#8

/-- The sum of data bytes modulo 65,536 (R126). -/
def sum16 (l : List Byte) : Nat := l.foldl (fun n b => (n + b.toNat) % 65536) 0

/-! ## Codes of named values (R200, R204)

Coded as chapter 12 codes them where it does, and otherwise from 1 in the order in which their rule
lists them; where several rules give them, in the order of the rules (DEDUCED: log 10). -/

def pumpCode : Pump → Nat
  | .one => 1 | .two => 2

def AState.code : AState → Nat
  | .acquiring => 1 | .good => 2 | .faulted => 3

def AInput.code : AInput → Nat
  | .pitLevel => 1 | .pumpPressure => 2 | .headTorque => 3

def EncCause.code : EncCause → Nat
  | .unreferenced => 1 | .quadrature => 2 | .range => 3

def PumpSt.code : PumpSt → Nat
  | .stopped => 1 | .starting => 2 | .running => 3

/-- No rule lists the six states of 2.3 one by one: they are coded in the order in which the From column
of its table first names them (DEDUCED: log 10). -/
def Mon.code : Mon → Nat
  | .idle => 1 | .settling => 2 | .watching => 3 | .flowCheck => 4 | .watchEntry => 5 | .holeWatch => 6

def Balance.code : Balance → Nat
  | .lossSuspect => 1 | .gainSuspect => 2 | .normal => 3

def ClampMark.code : ClampMark → Nat
  | .bottom => 1 | .top => 2 | .unclamped => 3

def LatchName.code : LatchName → Nat
  | .loss => 1 | .gain => 2

def LatchSrc.code : LatchSrc → Nat
  | .balance => 1 | .flowCheck => 2 | .idleFlow => 3 | .drift => 4

def ClearCause.code : ClearCause → Nat
  | .automatic => 1 | .accepted => 2

def Divert.code : Divert → Nat
  | .requested => 1 | .closed => 2 | .failed => 3 | .noDivert => 4

/-- In the order of 2.3's sentence (DEDUCED: log 10). -/
def FlowResult.code : FlowResult → Nat
  | .passed => 1 | .failed => 2 | .notCompleted => 3 | .noCheck => 4

def AbortCause.code : AbortCause → Nat
  | .stroke => 1 | .returnFlow => 2 | .switch => 3 | .pitFault => 4

def Loc.code : Loc → Nat
  | .string _ => 1 | .slot _ => 2 | .arm => 3 | .rack => 4 | .retired => 5

def Owner.code : Owner → Nat
  | .handling => 1 | .loader => 2

def Intent.code : Intent → Nat
  | .take => 1 | .receive => 2

def StepDir.code : StepDir → Nat
  | .ascending => 1 | .descending => 2

def LoadKind.code : LoadKind → Nat
  | .load => 2 | .unload => 3

def LoadPhase.code : LoadPhase → Nat
  | .waiting => 1 | .requested => 2

def WornCause.code : WornCause → Nat
  | .connections => 1 | .distance => 2 | .limitChange => 3

def Func.code : Func → Nat
  | .clamp => 1 | .wrench => 2 | .arm => 3 | .index => 4 | .diverter => 5

def Dir.code : Dir → Nat
  | .first => 1 | .second => 2

def FailCause.code : FailCause → Nat
  | .timeout => 1 | .guard => 2

def Seq.code : Seq → Nat
  | .idle => 0 | .running => 1 | .waiting => 2 | .held => 3 | .faulted => 4 | .interrupted => 5

def Op.code : Op → Nat
  | .addRod => 1 | .removeRod => 2

/-- The stages of an operation in order (R83, R85). -/
def Op.stages : Op → List Stage
  | .addRod => [.quiet, .clamp, .unscrew, .index, .present, .make, .ret, .unclamp]
  | .removeRod =>
    [.quiet, .index, .lift, .clamp, .brk, .spin, .catchRod, .free, .stow, .ret, .reconnect, .unclamp]

/-- A stage's position in its operation's table, counted from 1 (R204). -/
def stageCode (op : Op) (st : Stage) : Nat := op.stages.findIdx (· == st) + 1

/-- The operation and stage codes, each 0 with no operation (R204). -/
def opStageBytes : Option (Op × Stage) → List Byte
  | none => be 1 0 ++ be 1 0
  | some (op, st) => be 1 op.code ++ be 1 (stageCode op st)

/-- R76's three causes in their order, and R82's STALL after them (DEDUCED: log 10). -/
def HeldCause.code : HeldCause → Nat
  | .guard => 1 | .carousel => 2 | .pump => 3 | .stall => 4

def TripDir.code : TripDir → Nat
  | .out => 1 | .inward => 2

def TripEnd.code : TripEnd → Nat
  | .count => 1 | .stopped => 2 | .carouselFull => 3 | .noRod => 4 | .aborted => 5 | .fault => 6

def DState.code : DState → Nat
  | .live => 1 | .held => 2 | .fault => 3

def RKind.code : RKind → Nat
  | .jobOpened => 1 | .interval => 2 | .ticket => 3 | .lost => 4 | .recovery => 5

/-- The kind that a header's kind byte names, if it is a known one (R143). -/
def RKind.ofCode (n : Nat) : Option RKind :=
  match n with
  | 1 => some .jobOpened
  | 2 => some .interval
  | 3 => some .ticket
  | 4 => some .lost
  | 5 => some .recovery
  | _ => none

/-- R130's cause, then R138's two (DEDUCED: log 10). -/
def StoreCause.code : StoreCause → Nat
  | .sequenceExhausted => 1 | .lostWritten => 2 | .abandoned => 3

def Category.code : Category → Nat
  | .drilling => 1 | .reaming => 2 | .connection => 3 | .tripping => 4 | .circulating => 5
  | .remediation => 6 | .holeWatch => 7 | .standby => 8 | .breakdown => 9 | .held => 10

/-- A category or its absence marker, FFH (R204). -/
def optCatBytes (c : Option Category) : List Byte := be 1 ((c.map Category.code).getD 255)

/-- The ten categories in order (R159). -/
def allCategories : List Category :=
  [.drilling, .reaming, .connection, .tripping, .circulating, .remediation, .holeWatch, .standby,
    .breakdown, .held]

def JobSt.code : JobSt → Nat
  | .noJob => 0 | .opened => 1 | .suspended => 2 | .closing => 3

def TicketKind.code : TicketKind → Nat
  | .interim => 1 | .final => 2

def StartKind.code : StartKind → Nat
  | .cold => 1 | .warm => 2

def NoticeSt.code : NoticeSt → Nat
  | .clear => 1 | .waiting => 2 | .sent => 3

def DivResult.code : DivResult → Nat
  | .done => 1 | .timeout => 2 | .withdrawn => 3

def JogResult.code : JogResult → Nat
  | .jogEnd => 1 | .endSwitch => 2 | .guard => 3 | .timeout => 4

def Rate.bits : Rate → Nat
  | .r9600 => 9600 | .r19200 => 19200 | .r38400 => 38400 | .r57600 => 57600 | .r115200 => 115200
  | .r230400 => 230400

/-! ## Notices (10.4) -/

/-- The kind that a detail belongs to, by its code (10.4). -/
def Detail.kind : Detail → Nat
  | .pumpChange .. => 1
  | .loss .. => 2
  | .gain .. => 3
  | .latchCleared .. => 4
  | .flowCheck .. => 5
  | .pitDisagree .. => 6
  | .groupMismatch .. => 7
  | .driftStep .. => 8
  | .driftSwitch .. => 8
  | .entryAborted .. => 9
  | .opDone .. => 10
  | .opAborted .. => 10
  | .jogDone .. => 10
  | .diverterDone .. => 10
  | .opHeld .. => 11
  | .opFault .. => 12
  | .tripEnded .. => 13
  | .loadDone .. => 14
  | .rodWorn .. => 15
  | .depthSlip .. => 16
  | .depthFault .. => 17
  | .intervalClosed .. => 18
  | .sampleDue .. => 19
  | .storeFault .. => 20
  | .storeWeak .. => 21
  | .ticketReady .. => 22
  | .sensorFault .. => 23
  | .poweredCold => 24
  | .poweredWarm .. => 24

/-- The bytes of a detail: its fields in the order its raising rule lists them (R200). DEDUCED, log 10:
the operation codes 3 for MANUAL MOVE and 4 for DIVERTER in OP DONE, which follow R204's two, and
DEPTH FAULT with the state CLEARED as the one byte 4, after the three causes. DESIGN CHOICE, log 10: OP
DONE of DIVERTER and LOAD DONE have a cause byte only where the result is FAILED (R74, R59); with another
result the byte is left out, and is no absence marker. -/
def Detail.bytes : Detail → List Byte
  | .pumpChange p st rate => be 1 (pumpCode p) ++ be 1 st.code ++ be 2 rate
  | .loss src fig => be 1 src.code ++ beInt 4 fig
  | .gain src fig status =>
    be 1 src.code ++ beInt 4 fig ++ be 1 ((status.map Divert.code).getD 0)
  | .latchCleared l c => be 1 l.code ++ be 1 c.code
  | .flowCheck r sec vol => be 1 r.code ++ be 4 sec ++ be 3 vol
  | .pitDisagree p d diff => beInt 4 p ++ beInt 3 d ++ beInt 4 diff
  | .groupMismatch m stamp => setBytes m ++ be 4 stamp
  | .driftStep up level ref step =>
    be 1 (if up then 1 else 2) ++ be 2 level ++ beInt 4 ref ++ beInt 4 step
  | .driftSwitch m => be 1 3 ++ setBytes m
  | .entryAborted c => be 1 c.code
  | .opDone op serial slot rods =>
    be 1 op.code ++ be 1 1 ++ serialBytes serial ++ be 1 slot ++ be 1 rods
  | .opAborted op st serial arm =>
    be 1 op.code ++ be 1 2 ++ be 1 (stageCode op st) ++ serialBytes serial ++ optF 1 arm
  | .jogDone fn dir res => be 1 3 ++ be 1 fn.code ++ be 1 dir.code ++ be 1 res.code
  | .diverterDone dir res =>
    be 1 4 ++ be 1 dir.code ++ be 1 res.code ++
      (if res = .timeout then be 1 FailCause.timeout.code else [])
  | .opHeld op st c m =>
    be 1 op.code ++ be 1 (stageCode op st) ++ be 1 c.code ++
      (match m with | none => [] | some x => setBytes x)
  | .opFault op st fn c =>
    be 1 op.code ++ be 1 (stageCode op st) ++ be 1 fn.code ++ be 1 c.code
  | .tripEnded dir count done reason =>
    be 1 dir.code ++ be 1 count ++ be 1 done ++ be 1 reason.code
  | .loadDone k serial slot fail =>
    be 1 k.code ++ serialBytes serial ++ be 1 slot ++
      (match fail with | none => be 1 1 | some c => be 1 2 ++ be 1 c.code)
  | .rodWorn serial c conns dist => serialBytes serial ++ be 1 c.code ++ be 2 conns ++ be 4 dist
  | .depthSlip diff off depth => beInt 3 diff ++ beInt 4 off ++ be 4 depth
  | .depthFault (some c) depth st => be 1 c.code ++ be 4 depth ++ be 1 st.code
  | .depthFault none _ _ => be 1 4
  | .intervalClosed job number top bottom rop press flags =>
    be 3 job ++ be 2 number ++ be 4 top ++ be 4 bottom ++ optF 4 rop ++ optF 2 press ++ [flags]
  | .sampleDue number bottom sec => be 2 number ++ be 4 bottom ++ be 4 sec
  | .storeFault c k seq =>
    be 1 c.code ++ (match k with | none => [] | some x => be 1 x.code) ++
      (match seq with | none => [] | some n => be 4 n)
  | .storeWeak k seq rows => be 1 k.code ++ be 4 seq ++ be 1 rows
  | .ticketReady job number k total sat =>
    be 3 job ++ be 4 number ++ be 1 k.code ++ be 5 total ++ mark sat
  | .sensorFault i faulted v => be 1 i.code ++ be 1 (if faulted then 1 else 2) ++ optF 2 v
  | .poweredCold => be 1 StartKind.cold.code
  | .poweredWarm gap cat seq op recSeq =>
    be 1 StartKind.warm.code ++ be 4 gap ++ optCatBytes cat ++ be 1 seq.code ++ opStageBytes op ++
      opt0 4 recSeq

/-! ## Replies (R181, R200) -/

/-- The four statuses (R181). -/
inductive Status where
  | done | accepted | clamped | refused
  deriving DecidableEq, Repr

/-- The seventeen reasons, in the order of R200. -/
inductive Reason where
  | unknownKind | badLength | range | state | busy | interlock | unknownRod | slotEmpty
  | slotOccupied | armOccupied | noJob | jobOpen | unknownItem | tariffInUse | listFull | notFound
  | tooShort
  deriving DecidableEq, Repr

def Status.code : Status → Nat
  | .done => 0 | .accepted => 1 | .clamped => 2 | .refused => 3

def Reason.code : Reason → Nat
  | .unknownKind => 1 | .badLength => 2 | .range => 3 | .state => 4 | .busy => 5 | .interlock => 6
  | .unknownRod => 7 | .slotEmpty => 8 | .slotOccupied => 9 | .armOccupied => 10 | .noJob => 11
  | .jobOpen => 12 | .unknownItem => 13 | .tariffInUse => 14 | .listFull => 15 | .notFound => 16
  | .tooShort => 17

/-- A reply before it is framed: its status, its reason where it is REFUSED, and its fields. -/
structure Reply where
  status : Status
  reason : Option Reason
  fields : List Byte
  deriving DecidableEq, Repr

def Reply.ok (fields : List Byte := []) : Reply := ⟨.done, none, fields⟩
def Reply.accept (fields : List Byte := []) : Reply := ⟨.accepted, none, fields⟩
def Reply.clamp (fields : List Byte) : Reply := ⟨.clamped, none, fields⟩
def Reply.refuse (r : Reason) (fields : List Byte := []) : Reply := ⟨.refused, some r, fields⟩

/-- A reply's payload: status byte, reason byte, fields (R200). -/
def Reply.payload (r : Reply) : List Byte :=
  be 1 r.status.code ++ be 1 ((r.reason.map Reason.code).getD 0) ++ r.fields

end Sys2Proof.Machine
end

