-- ==== Sys2Proof/Decode.lean ====
section
/-! DEFINITION. Requests as frames carry them (R202, R203): what a kind and a payload spell, and what a
request's kind and payload are. The opcode table gives its rows no bits, so no word spells a
command. -/

namespace Sys2Proof

/-- The opcode table gives no row any bits: a word spells no command. -/
def decodeTableWord (_nbits _w : Nat) : Option Instr := none

namespace Machine

/-! ## Fields -/

/-- The field of `n` bytes at an offset of a payload, more significant byte first (R201). -/
def field (w n : Nat) (p : List Byte) (i : Nat) : BitVec w := BitVec.ofNat w (fromBe ((p.drop i).take n))

def u8 (p : List Byte) (i : Nat) : Byte := field 8 1 p i
def u16 (p : List Byte) (i : Nat) : BitVec 16 := field 16 2 p i
def u24 (p : List Byte) (i : Nat) : BitVec 24 := field 24 3 p i
def u32 (p : List Byte) (i : Nat) : BitVec 32 := field 32 4 p i
def u48 (p : List Byte) (i : Nat) : BitVec 48 := field 48 6 p i

/-- A request whose payload has one allowed length (R203). -/
def fixed (n : Nat) (p : List Byte) (r : Request) : Except Reason Request :=
  if p.length = n then .ok r else .error .badLength

/-! ## WRITE TARIFF (12.3) -/

/-- The number of items in an item set. -/
def itemCount (x : BitVec 16) : Nat :=
  ([0, 1, 2, 3, 4, 5, 6, 7, 8, 9, 10, 11, 12, 13, 14, 15].filter (fun i => x.getLsbD i)).length

/-- The length of a WRITE TARIFF payload with `b` bands and an item set (R203). -/
def tariffLength (b : Nat) (items : BitVec 16) : Nat := 46 + 6 * b + 9 * itemCount items

/-- The tariff that a WRITE TARIFF payload carries. -/
def readTariffWire (p : List Byte) : TariffWire :=
  let b := (u8 p 13).toNat
  { id := u8 p 0
    name := field 96 12 p 1
    bandCount := u8 p 13
    itemSet := u16 p 14
    rates := (List.range 10).map (fun i => u24 p (16 + 3 * i))
    bands := (List.range b).map (fun i => (u24 p (46 + 6 * i), u24 p (46 + 6 * i + 3)))
    items := (List.range (itemCount (u16 p 14))).map (fun i =>
      (u48 p (46 + 6 * b + 9 * i), u24 p (46 + 6 * b + 9 * i + 6))) }

/-- The payload of WRITE TARIFF. -/
def tariffPayload (t : TariffWire) : List Byte :=
  be 1 t.id.toNat ++ be 12 t.name.toNat ++ be 1 t.bandCount.toNat ++ be 2 t.itemSet.toNat
    ++ t.rates.flatMap (fun r => be 3 r.toNat)
    ++ t.bands.flatMap (fun b => be 3 b.1.toNat ++ be 3 b.2.toNat)
    ++ t.items.flatMap (fun i => be 6 i.1.toNat ++ be 3 i.2.toNat)

/-! ## Every request -/

/-- The request that a frame kind and payload spell, or why it is refused before its own checks: a
kind outside 01H to 2FH, or a length the table does not give (R181, R202, R203). -/
def decodeRequest (kind : Byte) (p : List Byte) : Except Reason Request :=
  match kind.toNat with
  | 0x01 => fixed 0 p .identify
  | 0x02 => fixed 5 p (.setParameter (u8 p 0) (u32 p 1))
  | 0x03 => fixed 1 p (.getParameter (u8 p 0))
  | 0x04 => fixed 3 p (.setNoticeMask (u24 p 0))
  | 0x05 => fixed 3 p (.ackNotices (u24 p 0))
  | 0x06 => fixed 0 p .clearAll
  | 0x07 => fixed 4 p (.setClock (u32 p 0))
  | 0x08 => fixed 4 p (.setWatch (u16 p 0) (u16 p 2))
  | 0x09 => fixed 0 p .readSignals
  | 0x0A => fixed 5 p (.setPump (u8 p 0) (u16 p 1) (u16 p 3))
  | 0x0B => fixed 2 p (.setReturnMeter (u16 p 0))
  | 0x0C => fixed 4 p (.declareAddition (u32 p 0))
  | 0x0D => fixed 1 p (.readBalance (u8 p 0))
  | 0x0E => fixed 1 p (.acceptLatch (u8 p 0))
  | 0x0F => fixed 0 p .enterHoleWatch
  | 0x10 => fixed 0 p .leaveHoleWatch
  | 0x11 => fixed 9 p (.registerRod (u48 p 0) (u16 p 6) (u8 p 8))
  | 0x12 => fixed 6 p (.retireRod (u48 p 0))
  | 0x13 => fixed 7 p (.loadSlot (u48 p 0) (u8 p 6))
  | 0x14 => fixed 1 p (.unloadSlot (u8 p 0))
  | 0x15 => fixed 1 p (.placeRod (u8 p 0))
  | 0x16 => fixed 7 p (.readTally (u8 p 0) (u48 p 1))
  | 0x17 => fixed 1 p (.addRod (u8 p 0))
  | 0x18 => fixed 1 p (.removeRod (u8 p 0))
  | 0x19 => fixed 2 p (.startTrip (u8 p 0) (u8 p 1))
  | 0x1A => fixed 0 p .stopTrip
  | 0x1B => fixed 0 p .resume
  | 0x1C => fixed 0 p .abort
  | 0x1D => fixed 4 p (.manualMove (u8 p 0) (u8 p 1) (u16 p 2))
  | 0x1E => fixed 1 p (.diverter (u8 p 0))
  | 0x1F => fixed 0 p .markInterval
  | 0x20 => fixed 7 p (.annotate (u16 p 0) (u8 p 2) (u16 p 3) (u8 p 5) (u8 p 6))
  | 0x21 => fixed 2 p (.readIntervals (u16 p 0))
  | 0x22 => fixed 5 p (.readLog (u32 p 0) (u8 p 4))
  | 0x23 =>
    if 46 ≤ p.length && p.length == tariffLength (u8 p 13).toNat (u16 p 14) then
      .ok (.writeTariff (readTariffWire p))
    else .error .badLength
  | 0x24 => fixed 2 p (.readTariff (u8 p 0) (u8 p 1))
  | 0x25 => fixed 8 p (.openJob (u24 p 0) (u8 p 3) (u32 p 4))
  | 0x26 => fixed 0 p .holdJob
  | 0x27 => fixed 0 p .releaseJob
  | 0x28 => fixed 0 p .declareBreakdown
  | 0x29 => fixed 0 p .endBreakdown
  | 0x2A => fixed 3 p (.addMaterial (u8 p 0) (u16 p 1))
  | 0x2B => fixed 0 p .issueTicket
  | 0x2C => fixed 0 p .closeJob
  | 0x2D => fixed 5 p (.readTicket (u32 p 0) (u8 p 4))
  | 0x2E => fixed 4 p (.collectTicket (u32 p 0))
  | 0x2F => fixed 1 p (.readAccruals (u8 p 0))
  | _ => .error .unknownKind

/-- A request's code and payload (R202). -/
def encodeRequest : Request → Byte × List Byte
  | .identify => (0x01#8, [])
  | .setParameter n v => (0x02#8, be 1 n.toNat ++ be 4 v.toNat)
  | .getParameter n => (0x03#8, be 1 n.toNat)
  | .setNoticeMask k => (0x04#8, be 3 k.toNat)
  | .ackNotices k => (0x05#8, be 3 k.toNat)
  | .clearAll => (0x06#8, [])
  | .setClock t => (0x07#8, be 4 t.toNat)
  | .setWatch sel pat => (0x08#8, be 2 sel.toNat ++ be 2 pat.toNat)
  | .readSignals => (0x09#8, [])
  | .setPump p d e => (0x0A#8, be 1 p.toNat ++ be 2 d.toNat ++ be 2 e.toNat)
  | .setReturnMeter k => (0x0B#8, be 2 k.toNat)
  | .declareAddition v => (0x0C#8, be 4 v.toNat)
  | .readBalance p => (0x0D#8, be 1 p.toNat)
  | .acceptLatch l => (0x0E#8, be 1 l.toNat)
  | .enterHoleWatch => (0x0F#8, [])
  | .leaveHoleWatch => (0x10#8, [])
  | .registerRod x l c => (0x11#8, be 6 x.toNat ++ be 2 l.toNat ++ be 1 c.toNat)
  | .retireRod x => (0x12#8, be 6 x.toNat)
  | .loadSlot x n => (0x13#8, be 6 x.toNat ++ be 1 n.toNat)
  | .unloadSlot n => (0x14#8, be 1 n.toNat)
  | .placeRod d => (0x15#8, be 1 d.toNat)
  | .readTally v x => (0x16#8, be 1 v.toNat ++ be 6 x.toNat)
  | .addRod n => (0x17#8, be 1 n.toNat)
  | .removeRod n => (0x18#8, be 1 n.toNat)
  | .startTrip d n => (0x19#8, be 1 d.toNat ++ be 1 n.toNat)
  | .stopTrip => (0x1A#8, [])
  | .resume => (0x1B#8, [])
  | .abort => (0x1C#8, [])
  | .manualMove f d j => (0x1D#8, be 1 f.toNat ++ be 1 d.toNat ++ be 2 j.toNat)
  | .diverter d => (0x1E#8, be 1 d.toNat)
  | .markInterval => (0x1F#8, [])
  | .annotate i l b r f =>
    (0x20#8, be 2 i.toNat ++ be 1 l.toNat ++ be 2 b.toNat ++ be 1 r.toNat ++ be 1 f.toNat)
  | .readIntervals i => (0x21#8, be 2 i.toNat)
  | .readLog q p => (0x22#8, be 4 q.toNat ++ be 1 p.toNat)
  | .writeTariff t => (0x23#8, tariffPayload t)
  | .readTariff i p => (0x24#8, be 1 i.toNat ++ be 1 p.toNat)
  | .openJob j t d => (0x25#8, be 3 j.toNat ++ be 1 t.toNat ++ be 4 d.toNat)
  | .holdJob => (0x26#8, [])
  | .releaseJob => (0x27#8, [])
  | .declareBreakdown => (0x28#8, [])
  | .endBreakdown => (0x29#8, [])
  | .addMaterial i q => (0x2A#8, be 1 i.toNat ++ be 2 q.toNat)
  | .issueTicket => (0x2B#8, [])
  | .closeJob => (0x2C#8, [])
  | .readTicket t p => (0x2D#8, be 4 t.toNat ++ be 1 p.toNat)
  | .collectTicket t => (0x2E#8, be 4 t.toNat)
  | .readAccruals p => (0x2F#8, be 1 p.toNat)

/-- The frame that carries a request with a tag (R200). -/
def requestFrame (tag : Byte) (r : Request) : Frame :=
  ⟨(encodeRequest r).1, tag, (encodeRequest r).2⟩

end Machine

end Sys2Proof
end

