-- ==== Sys2Proof/Machine/Operands.lean ====
section
/-! DEFINITION. The fields of requests: parameters with their ranges and clamps (R182, R188, 12.2),
signed and optional fields (R201), and what each code byte names (12.3). -/

namespace Sys2Proof.Machine

/-! ## Parameters (12.2) -/

/-- A parameter's range and default. -/
structure PRange where
  low : Int
  high : Int
  dflt : Int
  deriving DecidableEq, Repr

/-- The parameter table (12.2), numbers 1 to 27 in order. -/
def paramTable : List PRange :=
  [⟨2, 20, 5⟩, ⟨4, 16, 12⟩, ⟨1000, 1000000, 40000⟩, ⟨1000, 1000000, 20000⟩, ⟨1, 10, 3⟩, ⟨5, 300, 30⟩,
   ⟨1000, 200000, 20000⟩, ⟨1000, 500000, 30000⟩, ⟨10000, 400000, 60000⟩, ⟨500, 30000, 8000⟩,
   ⟨700, 1000, 950⟩, ⟨500, 30000, 8000⟩, ⟨700, 1000, 950⟩, ⟨10, 5000, 1000⟩, ⟨10, 500, 50⟩, ⟨0, 1, 0⟩,
   ⟨0, 7500, 0⟩, ⟨500, 30000, 3000⟩, ⟨50, 2000, 400⟩, ⟨1000, 200000, 60000⟩, ⟨0, 39, 0⟩,
   ⟨1000, 25000, 8000⟩, ⟨2, 20, 6⟩, ⟨-100000, 100000, 0⟩, ⟨250, 5000, 1000⟩, ⟨1000, 200000, 9800⟩,
   ⟨60, 3600, 600⟩]

/-- The range of a parameter number; none for numbers that name no parameter (12.2, R203). -/
def paramRange (n : Nat) : Option PRange := if n = 0 then none else paramTable[n - 1]?

/-- A value clamped to a range (R182). -/
def PRange.clamp (r : PRange) (v : Int) : Int := max r.low (min r.high v)

/-- A parameter as stored. -/
def State.param (s : State) (n : Nat) : Int := s.params.getD (n - 1) 0

/-- A parameter whose range is not negative, as a natural number. -/
def State.paramNat (s : State) (n : Nat) : Nat := (s.param n).toNat

/-- Stores a parameter's value. -/
def State.storeParam (s : State) (n : Nat) (v : Int) : State := s.setParams (s.params.set (n - 1) v)

/-- The parameters by name (12.2). -/
def State.pFlowPeriod (s : State) : Nat := s.paramNat 6
def State.pFlowAllowance (s : State) : Nat := s.paramNat 7
def State.pDriftBand (s : State) : Int := s.param 15
def State.pAutoDivert (s : State) : Bool := s.param 16 == 1
def State.pBottomAssembly (s : State) : Nat := s.paramNat 18
def State.pConnLimit (s : State) : Nat := s.paramNat 19
def State.pDistLimitM (s : State) : Nat := s.paramNat 20
def State.pMakeTorque (s : State) : Nat := s.paramNat 22
def State.pSpinTurns (s : State) : Nat := s.paramNat 23
def State.pIntervalLength (s : State) : Nat := s.paramNat 25
def State.pAnnular (s : State) : Nat := s.paramNat 26
def State.pGrace (s : State) : Nat := s.paramNat 27

/-- The parameter values that a window opening now takes (R20, R21). -/
def State.force (s : State) : Force where
  w := s.paramNat 1
  n := s.paramNat 2
  lossThr := s.paramNat 3
  gainThr := s.paramNat 4
  m := s.paramNat 5
  tol := s.paramNat 8
  area := s.paramNat 9
  disp1 := s.paramNat 10
  eff1 := s.paramNat 11
  disp2 := s.paramNat 12
  eff2 := s.paramNat 13
  k := s.paramNat 14

/-- The values in force: those of the window in progress, or, before the first window has opened,
those it would take (log 12). -/
def State.inForce (s : State) : Force :=
  match s.cm.win with
  | some w => w.force
  | none => s.force

/-! ## Optional fields and code bytes -/

/-- A slot field that may be absent: FFH is its marker (R201). -/
def optSlot (b : Byte) : Option Nat := if b = 0xFF#8 then none else some b.toNat

/-- A start depth that may be absent: FFFFFFFFH is its marker (R201). -/
def optDepth (d : BitVec 32) : Option Nat := if d = BitVec.allOnes 32 then none else some d.toNat

/-- An annotation field: 0 makes it absent (R121). -/
def optCode (n : Nat) : Option Nat := if n = 0 then none else some n

/-- The latch of ACCEPT LATCH (12.3). -/
def LatchName.ofCode (b : Byte) : Option LatchName :=
  if b = 1#8 then some .loss else if b = 2#8 then some .gain else none

/-- The pump of SET PUMP (R20). -/
def pumpOfCode (b : Byte) : Option Pump :=
  if b = 1#8 then some .one else if b = 2#8 then some .two else none

/-- A function code, 1 to 5 (12.3). -/
def Func.ofCode (b : Byte) : Option Func :=
  match b.toNat with
  | 1 => some .clamp
  | 2 => some .wrench
  | 3 => some .arm
  | 4 => some .index
  | 5 => some .diverter
  | _ => none

/-- A direction code: the first or the second of R64 (12.3). -/
def Dir.ofCode (b : Byte) : Option Dir :=
  if b = 1#8 then some .first else if b = 2#8 then some .second else none

/-- A trip's direction (12.3). -/
def TripDir.ofCode (b : Byte) : Option TripDir :=
  if b = 1#8 then some .out else if b = 2#8 then some .inward else none

/-- The destinations of PLACE ROD: 0 to 39 a slot, 40 the string, 41 the rack (12.3). -/
inductive Dest where
  | slot (n : Nat)
  | string | rack
  deriving DecidableEq, Repr

def Dest.ofCode (b : Byte) : Option Dest :=
  if b.toNat < Config.slotCount then some (.slot b.toNat)
  else if b.toNat = 40 then some .string
  else if b.toNat = 41 then some .rack
  else none

/-- The six codes of a serial, first character first (R201). -/
def serialCodes (x : Serial) : List Nat := (serialBytes x).map BitVec.toNat

/-- Every character of the serial is A to Z or 0 to 9, codes 1 to 36: otherwise the request is refused
RANGE, whether it registers a rod or only names one (R44, R45, R182, R201; log 41). -/
def serialValid (x : Serial) : Bool := (serialCodes x).all (fun c => 1 ≤ c && c ≤ 36)

/-- The item codes of an item set: code c is bit c - 1 (R202). -/
def itemCodes (x : BitVec 16) : List Nat :=
  [1, 2, 3, 4, 5, 6, 7, 8, 9, 10, 11, 12, 13, 14, 15, 16].filter (fun c => x.getLsbD (c - 1))

/-- A tariff as its request gives it, the items paired with their codes (R160, R202). -/
def wireTariff (t : TariffWire) : Tariff where
  id := t.id.toNat
  name := t.name
  bands := t.bands.map (fun b => (b.1.toNat, b.2.toNat))
  rates := t.rates.map BitVec.toNat
  items := (itemCodes t.itemSet).zipWith (fun c i => ⟨c, i.1, i.2.toNat⟩) t.items

end Sys2Proof.Machine
end

