-- ==== Sys2Proof/Machine/Flags.lean ====
section
/-! DEFINITION. Flags: switches as present conditions (R3), the four watch groups with their mismatch
sets and flags (R12 to R14), and the notice set with its states, again marks and mask (R183 to R186). -/

namespace Sys2Proof.Machine

/-! ## Switches -/

/-- A switch's place in the table of 1.1, counted from 0. -/
def switchIndex : Switch → Nat
  | .mastLocked => 0 | .clampOpen => 1 | .clampClosed => 2 | .wrenchOpen => 3 | .wrenchGripped => 4
  | .armHome => 5 | .armAtCentre => 6 | .armAtCarousel => 7 | .indexLocked => 8 | .headConnected => 9
  | .diverterOpen => 10 | .diverterClosed => 11 | .pitHigh => 12 | .pitLow => 13 | .returnPaddle => 14
  | .stopChainHealthy => 15

/-- A switch's bit in a switch set: the first switch is the most significant (R201). -/
def switchBit (sw : Switch) : Nat := 15 - switchIndex sw

/-- A set of one switch. -/
def switchMask (sw : Switch) : SwitchSet := 1#16 <<< switchBit sw

/-- Whether a switch is in a set. -/
def inSet (x : SwitchSet) (sw : Switch) : Bool := x.getLsbD (switchBit sw)

/-- A set with one switch's value written. -/
def putSwitch (x : SwitchSet) (sw : Switch) (on : Bool) : SwitchSet :=
  if on then x ||| switchMask sw else x &&& ~~~ switchMask sw

/-- A switch set from its sixteen values in table order. -/
def setOfList (l : List Bool) : SwitchSet :=
  l.foldl (fun m b => (m <<< 1) ||| (if b then 1#16 else 0#16)) 0#16

/-- A switch read as a present condition: its debounced value (R3). -/
def State.on (s : State) (sw : Switch) : Bool := inSet s.sfe.debounced sw

/-! ## Watch groups -/

def State.group (s : State) : GroupNo → Group
  | .g0 => s.sfe.g0 | .g1 => s.sfe.g1 | .g2 => s.sfe.g2 | .g3 => s.sfe.g3

def State.setGroup (s : State) (n : GroupNo) (g : Group) : State :=
  match n with
  | .g0 => s.setSfe { s.sfe with g0 := g }
  | .g1 => s.setSfe { s.sfe with g1 := g }
  | .g2 => s.setSfe { s.sfe with g2 := g }
  | .g3 => s.setSfe { s.sfe with g3 := g }

/-- The selected switches whose debounced values differ from their expected values (R12). -/
def mismatchOf (debounced sel pat : SwitchSet) : SwitchSet := (debounced ^^^ pat) &&& sel

/-- Writes a group's contents whole and evaluates it again at once (R14): the pattern of switches not
selected is discarded, and a status of MISMATCH after the write raises the mismatch event, whatever
it was before. Answers whether the event was raised. -/
def writeGroup (n : GroupNo) (sel pat : SwitchSet) (s : State) : State × Bool :=
  let g := s.group n
  let m := mismatchOf s.sfe.debounced sel pat
  let raised := m != 0#16
  (s.setGroup n { sel := sel, pat := pat &&& sel, mism := m, flag := g.flag || raised }, raised)

/-- Disarms a group: a write of an empty select set, which leaves the flag (R14). -/
def disarmGroup (n : GroupNo) (s : State) : State := (writeGroup n 0 0 s).1

/-- Clears a group's mismatch flag and nothing else (R14). -/
def clearGroupFlag (n : GroupNo) (s : State) : State :=
  s.setGroup n { s.group n with flag := false }

/-- Evaluates a group again (R12); its event is raised when its status changes from MATCH to
MISMATCH (R13). Answers whether it was. -/
def evalGroup (n : GroupNo) (s : State) : State × Bool :=
  let g := s.group n
  let m := mismatchOf s.sfe.debounced g.sel g.pat
  let raised := g.mism == 0#16 && m != 0#16
  (s.setGroup n { g with mism := m, flag := g.flag || raised }, raised)

/-- Evaluates a group after a change of a switch: only if the switch is in its select set (R12). -/
def evalGroupOn (n : GroupNo) (sw : Switch) (s : State) : State × Bool :=
  if inSet (s.group n).sel sw then evalGroup n s else (s, false)

/-! ## Notices -/

/-- What an event does to its kind (R183). -/
def Notice.event (n : Notice) (d : Detail) : Notice :=
  match n.st with
  | .clear => ⟨.waiting, false, some d, 1⟩
  | .waiting => { n with detail := some d, count := min (n.count + 1) 255 }
  | .sent => { n with again := true, detail := some d, count := min (n.count + 1) 255 }

/-- What an acknowledgement that names a kind does to it (R185). -/
def Notice.ack (n : Notice) : Notice :=
  match n.st with
  | .sent => if n.again then { n with st := .waiting, again := false } else ⟨.clear, false, none, 0⟩
  | _ => n

/-- What a re-hunt or a restart does to a kind: SENT returns to PENDING and the again mark is
cleared (R177, R190). -/
def Notice.requeue (n : Notice) : Notice :=
  { n with st := if n.st = .sent then .waiting else n.st, again := false }

/-- What the beginning of a kind's notice frame does to it (R184). -/
def Notice.send (n : Notice) : Notice := { n with st := .sent, count := 0 }

/-- Raises an event of a kind, whatever its mask (R183). -/
def State.raise (s : State) (d : Detail) : State :=
  s.setLc { s.lc with notices := s.lc.notices.modify (d.kind - 1) (fun n => n.event d) }

/-- A kind, by its code. -/
def Lc.notice (lc : Lc) (code : Nat) : Notice := lc.notices.getD (code - 1) .reset

/-- A kind is eligible when its state is PENDING and its mask is enabled (R184). -/
def Lc.eligible (lc : Lc) (code : Nat) : Bool :=
  (lc.notice code).st == .waiting && lc.mask.getLsbD (code - 1)

/-- The codes of the 24 kinds in ascending order (10.4). -/
def noticeCodes : List Nat :=
  [1, 2, 3, 4, 5, 6, 7, 8, 9, 10, 11, 12, 13, 14, 15, 16, 17, 18, 19, 20, 21, 22, 23, 24]

/-- The eligible kind with the lowest code (R184). -/
def Lc.nextKind (lc : Lc) : Option Nat := noticeCodes.find? lc.eligible

/-- Acknowledges every kind that a set names (R185). -/
def ackSet (kinds : KindSet) (l : List Notice) : List Notice :=
  l.mapIdx (fun i n => if kinds.getLsbD i then n.ack else n)

end Sys2Proof.Machine
end

