-- ==== Sys2Proof/Machine/Ops.lean ====
section
/-! DEFINITION. Named operations that every family uses: the passing of time (log 2), commands while
the part is held in reset, and the clock. -/

namespace Sys2Proof.Machine

/-- A timer after `dt` milliseconds; it stands at 0 until its end is taken (log 2). -/
def Timer.elapse (dt : Nat) (t : Option Nat) : Option Nat := t.map (· - dt)

/-- A timer has run out: it is held, and at 0. -/
def Timer.over (t : Option Nat) : Bool := t == some 0

/-- The front end after `dt` milliseconds. While acquisition runs, a switch whose raw input has held
still for 20 ms is acquired, and every switch is at the acquisition limit (R2). -/
def Sfe.elapse (dt : Nat) (f : Sfe) : Sfe :=
  let stab := f.stab.map (Timer.elapse dt)
  if f.acquisitionEnded then
    { f with
      stab := stab
      ms := (f.ms + dt) % 2 ^ 32
      rotTimer := Timer.elapse dt f.rotTimer
      sampleTimer := Timer.elapse dt f.sampleTimer }
  else
    let age := min (f.startAge + dt) Config.acquisitionLimitMs
    let fresh := stab.mapIdx (fun i t =>
      !(f.acquired.getLsbD (15 - i)) && (age == Config.acquisitionLimitMs || Timer.over t))
    let new := setOfList fresh
    { f with
      startAge := age
      stab := stab.zipWith (fun t b => if b then none else t) fresh
      acquired := f.acquired ||| new
      debounced := (f.debounced &&& ~~~ new) ||| (f.raw &&& new) }

/-- A pump record after `dt` milliseconds (R18). -/
def PumpRec.elapse (dt : Nat) (p : PumpRec) : PumpRec := { p with gap := Timer.elapse dt p.gap }

/-- The monitor's timers after `dt` milliseconds. -/
def Cm.elapse (dt : Nat) (c : Cm) : Cm :=
  { c with
    pump1 := c.pump1.elapse dt
    pump2 := c.pump2.elapse dt
    fcTimer := Timer.elapse dt c.fcTimer
    capTimer := Timer.elapse dt c.capTimer }

/-- The arbiter after `dt` milliseconds: the holder's timeout counts down, and no other (R66). -/
def Aha.elapse (dt : Nat) (a : Aha) : Aha :=
  { a with holder := a.holder.map (fun r => { r with left := Timer.elapse dt r.left }) }

def Hs.elapse (dt : Nat) (h : Hs) : Hs := { h with stall := Timer.elapse dt h.stall }

def Rws.elapse (dt : Nat) (r : Rws) : Rws := { r with timer := Timer.elapse dt r.timer }

def Lc.elapse (dt : Nat) (l : Lc) : Lc :=
  { l with silence := Timer.elapse dt l.silence, byteTimer := Timer.elapse dt l.byteTimer }

/-- The machine after `dt` milliseconds with no event: every running timer is lower by `dt`. While
the part is held in reset none runs (R192). -/
def State.elapse (dt : Nat) (s : State) : State :=
  if s.tps.phase = .off then s
  else
    { s with
      sfe := s.sfe.elapse dt
      cm := s.cm.elapse dt
      aha := s.aha.elapse dt
      hs := s.hs.elapse dt
      rws := s.rws.elapse dt
      lc := s.lc.elapse dt }

/-- An event after `dt` milliseconds. While the part is held in reset, nothing acts (R192). -/
def whenOn (dt : Nat) (s : State) (f : State → State) : State :=
  if s.tps.phase = .off then s else f (s.elapse dt)

/-- The clock's reading (R191). -/
def State.now (s : State) : Nat := s.tps.clock

/-- A 32-bit count that stays at its top. -/
def addTop32 (a b : Nat) : Nat := min (a + b) Config.top32

/-- The two pumps are quiet when both are STOPPED (R19). -/
def Cm.quiet (c : Cm) : Bool := c.pump1.st == .stopped && c.pump2.st == .stopped

/-- An analogue input that is ACQUIRING or FAULTED is faulted (R10). -/
def Analogue.isFaulted (a : Analogue) : Bool := a.st != .good

end Sys2Proof.Machine
end

