-- ==== Sys2Proof/Machine/Store.lean ====
section
/-! DEFINITION. The record store: blocks, rows and records (7.1), the head and the sector index (7.2),
the writer queue (7.3), the writer (7.4), verify and rewrite (7.5), the power-fail marks and the
warm recovery's steps (7.7), and the cold-start scan (7.8). -/

namespace Sys2Proof.Machine

/-! ## The flash array (R125) -/

/-- A block none of whose bytes has been programmed. -/
def Block.erased (addr : Nat) : Block :=
  ⟨addr, List.replicate 64 0xFF#8, List.replicate 64 0xFF#8⟩

/-- The block reads erased: every byte reads FFH at the normal level, which every read uses (R125). -/
def Block.readsErased (b : Block) : Bool := b.normal.all (· == 0xFF#8)

/-- Every byte reads FFH at both levels. -/
def Block.isErased (b : Block) : Bool := b.normal.all (· == 0xFF#8) && b.margin.all (· == 0xFF#8)

/-- What a block reads as; one that is not listed reads erased. -/
def blockAt (store : List Block) (addr : Nat) : Block :=
  (store.find? (fun b => b.addr == addr)).getD (.erased addr)

/-- Lists a block's contents in address order: no erased block is listed. -/
def insertBlock (b : Block) : List Block → List Block
  | [] => if b.isErased then [] else [b]
  | c :: cs =>
    if b.addr < c.addr then (if b.isErased then c :: cs else b :: c :: cs)
    else if b.addr = c.addr then (if b.isErased then cs else b :: cs)
    else c :: insertBlock b cs

/-- Writes a block's contents, keeping the store's form; the store has no block at or past 8,192
(R125). -/
def putBlock (b : Block) (store : List Block) : List Block :=
  if b.addr < Config.storeBlocks then insertBlock b store else store

/-- The store's form: addresses rising and below 8,192, blocks of 64 bytes, none erased. -/
def storeWf : List Block → Bool
  | [] => true
  | b :: rest =>
    b.addr < Config.storeBlocks && b.normal.length == 64 && b.margin.length == 64 && !b.isErased
      && rest.all (fun c => b.addr < c.addr) && storeWf rest

/-- Programs a 64-byte pattern into a block: ones can only become zeros (R125). -/
def programBlock (store : List Block) (addr : Nat) (pattern : List Byte) : List Block :=
  let b := blockAt store addr
  let p := (pattern ++ List.replicate 64 0xFF#8).take 64
  putBlock ⟨addr, b.normal.zipWith (· &&& ·) p, b.margin.zipWith (· &&& ·) p⟩ store

/-- Erases a sector: every byte of it becomes FFH (R125). -/
def eraseSector (store : List Block) (sec : Nat) : List Block :=
  store.filter (fun b => b.addr / Config.sectorBlocks != sec)

/-- The cells of a block that read otherwise than held, at one level or both (log 5). -/
def ageBlock (store : List Block) (addr : Nat) (cells : List CellRead) : List Block :=
  let b := blockAt store addr
  putBlock
    ⟨addr, cells.foldl (fun l c => l.set c.offset c.normal) b.normal,
      cells.foldl (fun l c => l.set c.offset c.margin) b.margin⟩ store

/-- Row `r` of a level's bytes: seven data bytes and the row check (R125). -/
def rowOf (bytes : List Byte) (r : Nat) : List Byte := (bytes.drop (8 * r)).take 8

/-- A row passes when the exclusive-or of its data bytes equals its row check (R125). -/
def rowPasses (row : List Byte) : Bool := xorAll (row.take 7) == row.getD 7 0

/-- How a row reads: its data bytes, and GOOD at the normal level, weak at the margin level, or failed
at both, with the bytes of the normal level (R135, R140). -/
inductive RowRead where
  | good (data : List Byte)
  | weak (data : List Byte)
  | failed (data : List Byte)
  deriving DecidableEq, Repr

def RowRead.data : RowRead → List Byte
  | .good d => d | .weak d => d | .failed d => d

def readRow (b : Block) (r : Nat) : RowRead :=
  let n := rowOf b.normal r
  let m := rowOf b.margin r
  if rowPasses n then .good (n.take 7)
  else if rowPasses m then .weak (m.take 7)
  else .failed (n.take 7)

/-- The eight rows of a block as they read. -/
def readRows (b : Block) : List RowRead := [0, 1, 2, 3, 4, 5, 6, 7].map (readRow b)

def RowRead.isWeak : RowRead → Bool
  | .weak _ => true
  | _ => false

def RowRead.isFailed : RowRead → Bool
  | .failed _ => true
  | _ => false

/-! ## Records (R126) -/

/-- The least number of blocks that hold validity byte and header, body and sum (R126). -/
def blocksFor (bodyLength : Nat) : Nat := (15 + bodyLength + 2 + 55) / 56

/-- A record's data bytes from the kind to the byte before the sum (R126, R204). -/
def Record.inner (r : Record) : List Byte :=
  be 1 r.kind.code ++ be 4 r.seq ++ be 4 r.job ++ be 1 r.blocks ++ be 4 r.ts ++ r.body
    ++ List.replicate (56 * r.blocks - 17 - r.body.length) 0#8

/-- A record's data bytes: validity byte, header, body, sum (R126). -/
def Record.data (r : Record) : List Byte := 0x5A#8 :: r.inner ++ be 2 (sum16 r.inner)

/-- The 64-byte pattern of block `k` of a record: each row's seven data bytes and its check
(R125). -/
def Record.pattern (r : Record) (k : Nat) : List Byte :=
  let d := (r.data.drop (56 * k)).take 56
  [0, 1, 2, 3, 4, 5, 6, 7].flatMap (fun i =>
    let row := (d.drop (7 * i)).take 7
    row ++ [xorAll row])

/-- The pattern that voids a record: FFH everywhere except 00H at the validity byte (R126). -/
def voidPattern : List Byte := 0#8 :: List.replicate 63 0xFF#8

/-- The validity byte that a record's first block carries, as 5AH (R134). -/
def validMark : Byte := 0x5A#8

/-- The record sum of data bytes as read matches (R126, R135). -/
def sumMatches (data : List Byte) : Bool :=
  let n := data.length
  fromBe (data.drop (n - 2)) == sum16 ((data.take (n - 2)).drop 1)

/-! ## Readability and the sector index (R127, R128) -/

/-- The smallest sequence number among readable records (R128). -/
def earliestOf (l : List Readable) : Option Nat := (l.map Readable.seq).min?

/-- The sector of a block. -/
def sectorOf (addr : Nat) : Nat := addr / Config.sectorBlocks

/-- Block 0 of the next sector in store order (R127). -/
def nextSector (addr : Nat) : Nat :=
  (sectorOf addr + 1) % Config.sectorCount * Config.sectorBlocks

/-- The record of the write in hand (R132). -/
def Rws.inHand (r : Rws) : Option Record :=
  match r.write with
  | none => none
  | some w =>
    match w.src with
    | .queue => r.queue.head?
    | .slot => r.slot

/-- An erase begins: the sector's records stop being readable, the earliest readable sequence moves,
and the sector is RE-ERASE (R129). -/
def beginErase (sec : Nat) (r : Rws) : Rws :=
  let readable := r.readable.filter (fun x => sectorOf x.addr != sec)
  { r with
    readable := readable
    earliest := earliestOf readable
    sectors := r.sectors.set sec .reErase
    halfErased := if r.halfErased.contains sec then r.halfErased else sec :: r.halfErased
    wst := .erasing sec
    timer := some Config.eraseMs }

/-- The erase has run: the sector is ERASED (R129). -/
def endErase (sec : Nat) (r : Rws) : Rws :=
  { r with
    store := eraseSector r.store sec
    sectors := r.sectors.set sec .erased
    halfErased := r.halfErased.filter (· != sec) }

/-- The writer goes on to program the next block of the write in hand. -/
def beginProgram (r : Rws) : Rws := { r with wst := .programming, timer := some Config.programMs }

/-- Places the write in hand at the head and begins it (R133); `first` is the record's first attempt,
in which its fresh-sector mark counts. -/
def placeWrite (first : Bool) (r : Rws) : Rws :=
  match r.write, r.inHand with
  | some w, some rec =>
    let h1 := if first && rec.fresh && r.head % Config.sectorBlocks != 0 then nextSector r.head else r.head
    let h2 :=
      if Config.sectorBlocks - h1 % Config.sectorBlocks < rec.blocks then nextSector h1 else h1
    let r := { r with head := h2, write := some { w with start := h2, done := 0, voiding := none, mark := none } }
    if h2 % Config.sectorBlocks = 0 then
      match r.sectors.getD (sectorOf h2) .erased with
      | .erased => beginProgram r
      | _ => beginErase (sectorOf h2) r
    else beginProgram r
  | _, _ => r

/-- A write not yet begun. -/
def Write.new (src : Source) : Write := ⟨src, 0, 0, 0, none, none, 0, 0, []⟩

/-- The writer, in IDLE, takes the record that waits in the verify slot, or else the oldest of the
queue, with attempt count 0 (R132). -/
def writerTest (r : Rws) : Rws :=
  if r.wst = .idle && r.recovering.isNone && !r.scanning && r.write.isNone then
    if r.slot.isSome then placeWrite false { r with write := some (.new .slot) }
    else if r.queue.isEmpty then r
    else placeWrite true { r with write := some (.new .queue) }
  else r

/-- Hands a record over (R130): it joins the writer queue with the next sequence number, which is
answered, or it is not taken. -/
def handOver (kind : RKind) (job : Nat) (body : List Byte) (fresh : Bool) (item : Option Nat)
    (s : State) : State × Option Nat :=
  if !s.rws.accepting then (s, none)
  else if Config.top32 < s.rws.nextSeq then
    if s.rws.exhausted then (s, none)
    else
      ((s.setRws { s.rws with exhausted := true }).raise (.storeFault .sequenceExhausted none none),
        none)
  else if Config.writerQueueTop ≤ s.rws.queue.length then (s, none)
  else
    let n := s.rws.nextSeq
    let rec_ : Record := ⟨kind, n, job, blocksFor body.length, s.now, body, fresh, item⟩
    (s.setRws (writerTest { s.rws with queue := s.rws.queue ++ [rec_], nextSeq := n + 1 }), some n)

/-- The writer queue has a free place for a hand-over (R115, R122, R130). With the sequence numbers
exhausted it counts as full, whatever it holds (DESIGN CHOICE: log 46). -/
def Rws.hasPlace (r : Rws) : Bool :=
  r.accepting && r.queue.length < Config.writerQueueTop && r.nextSeq ≤ Config.top32

/-! ## Programming (R134) -/

/-- The block program in progress ends: the block holds its pattern, the head moves on, and after the
first block the sector index is updated (R128, R134). -/
def blockDone (r : Rws) : Rws :=
  match r.write, r.inHand with
  | some w, some rec =>
    let addr := w.start + w.done
    let sec := sectorOf addr
    { r with
      store := programBlock r.store addr (rec.pattern w.done)
      head := (addr + 1) % Config.storeBlocks
      sectors :=
        if w.done = 0 && r.sectors.getD sec .erased == .erased then
          r.sectors.set sec (.inUse (some rec.seq))
        else r.sectors
      write := some { w with done := w.done + 1 } }
  | _, _ => r

/-- The last block of the write in hand has been programmed. -/
def Rws.allProgrammed (r : Rws) : Bool :=
  match r.write, r.inHand with
  | some w, some rec => rec.blocks ≤ w.done
  | _, _ => false

/-- A record whose source is the queue leaves it and enters the verify slot (R134). -/
def toVerifySlot (r : Rws) : Rws :=
  match r.write, r.queue with
  | some w, rec :: rest =>
    if w.src = .queue then
      { r with queue := rest, slot := some rec, write := some { w with src := .slot } }
    else r
  | _, _ => r

/-- The writer enters VERIFYING at the record's first block (R134, R142). -/
def beginVerify (r : Rws) : Rws :=
  { r with
    wst := .verifying
    timer := some Config.readMs
    write := r.write.map (fun w =>
      { w with readBlocks := 0, weak := 0, readData := [], voiding := none, mark := none }) }

/-- The writer begins the void of the write in hand (R137, R142). -/
def beginVoid (why : VoidFor) (r : Rws) : Rws :=
  { r with
    wst := .programming
    timer := some Config.programMs
    write := r.write.map (fun w => { w with voiding := some why, mark := none }) }

/-- The void's block program: 00H at the validity byte of the record's first block (R126). -/
def voidBlock (r : Rws) : Rws :=
  match r.write with
  | some w => { r with store := programBlock r.store w.start voidPattern }
  | none => r

/-- The write in hand has ended: the verify slot empties and the writer is IDLE. -/
def endWrite (r : Rws) : Rws := { r with wst := .idle, timer := none, write := none, slot := none }

/-! ## Verify (R135 to R138) -/

/-- How a verify stands after a block has been read. -/
inductive VerifyStep where
  | more | pass (weak : Nat) | fail
  deriving DecidableEq, Repr

/-- One block of the record in the verify slot is read back (R135); `cells` are its cells that read
otherwise than held. -/
def verifyRead (cells : List CellRead) (r : Rws) : Rws × VerifyStep :=
  match r.write, r.slot with
  | some w, some rec =>
    let addr := w.start + w.readBlocks
    let store := ageBlock r.store addr cells
    let rows := readRows (blockAt store addr)
    let r := { r with store := store }
    if rows.any RowRead.isFailed then (r, .fail)
    else
      let weak := w.weak + (rows.filter RowRead.isWeak).length
      let data := w.readData ++ rows.flatMap RowRead.data
      let n := w.readBlocks + 1
      if n < rec.blocks then
        ({ r with
            timer := some Config.readMs
            write := some { w with readBlocks := n, weak := weak, readData := data } }, .more)
      else if sumMatches data && data.head? == some validMark then (r, .pass weak)
      else (r, .fail)
  | _, _ => (r, .fail)

/-- The verify passes: the record becomes readable (R136). -/
def verifyPassed (r : Rws) : Rws :=
  match r.write, r.slot with
  | some w, some rec =>
    let readable := r.readable ++ [⟨w.start, rec.kind, rec.seq, rec.job, rec.blocks, rec.ts⟩]
    endWrite { r with readable := readable, earliest := earliestOf readable }
  | _, _ => r

/-- The LOST record that takes a lost record's place (R138). -/
def lostRecord (rec : Record) (now : Nat) : Record :=
  let body := be 1 rec.kind.code ++ be 4 rec.ts ++ opt0 4 rec.item
  ⟨.lost, rec.seq, rec.job, blocksFor body.length, now, body, false, none⟩

/-- The record has failed a verify and has been voided: the attempt count rises, and it is rewritten,
or becomes LOST, or is abandoned (R137, R138). -/
def afterFailure (s : State) : State :=
  match s.rws.write, s.rws.inHand with
  | some w, some rec =>
    if w.attempts + 1 < Config.attemptTop then
      s.setRws (placeWrite false
        { s.rws with write := some { w with attempts := w.attempts + 1, src := .slot } })
    else if rec.kind = .lost then
      (s.setRws (endWrite s.rws)).raise (.storeFault .abandoned none (some rec.seq))
    else
      (s.setRws (placeWrite false
        { s.rws with slot := some (lostRecord rec s.now), write := some (.new .slot) })).raise
        (.storeFault .lostWritten (some rec.kind) (some rec.seq))
  | _, _ => s

/-! ## Loss of power and warm recovery (R141, R142) -/

/-- The writer at the power-fail warning (R141). A block program in progress completes. -/
def rwsPowerFail (r : Rws) : Rws :=
  let r :=
    match r.wst, r.write with
    | .programming, some w =>
      match w.voiding with
      | some why =>
        let r := voidBlock r
        { r with write := some { w with voiding := none, mark := some (.rewrite why) } }
      | none =>
        let r := blockDone r
        let r := { r with write := r.write.map (fun x : Write => { x with mark := some .unverified }) }
        if r.allProgrammed then toVerifySlot r else r
    | .verifying, some w =>
      { r with write := some { w with mark := some .unverified, readBlocks := 0, weak := 0, readData := [] } }
    | _, _ => r
  { r with wst := .idle, timer := none, accepting := false, recovering := none }

/-- The first sector whose state is RE-ERASE. -/
def Rws.toReErase (r : Rws) : Option Nat := r.sectors.findIdx? (· == .reErase)

/-- Steps 2 to 5 of the warm recovery (R142), begun; nothing to do leaves the writer IDLE with no
write in hand. -/
def recoverWrite (s : State) : State :=
  let r := { s.rws with recovering := some .finishing, wst := .idle, timer := none }
  let s := s.setRws r
  match r.write with
  | none => s
  | some w =>
    match w.mark with
    | some .unverified =>
      if r.allProgrammed then s.setRws (beginVerify r)
      else if w.done = 0 then s.setRws (placeWrite false r)
      else s.setRws (beginVoid .cutShort r)
    | some (.rewrite .failure) => afterFailure s
    | some (.rewrite .cutShort) => s.setRws (placeWrite false r)
    | none => s.setRws (beginProgram r)

/-- The warm recovery from its first step (R142): a RE-ERASE sector is erased in full first. -/
def recoverStart (s : State) : State :=
  let r := { s.rws with recovering := some .clearing, accepting := false, scanning := false }
  match r.toReErase with
  | some sec => s.setRws { (beginErase sec r) with recovering := some .clearing }
  | none => recoverWrite (s.setRws r)

/-- The warm recovery's steps have ended (R142). -/
def Rws.recovered (r : Rws) : Bool :=
  r.recovering == some .finishing && r.wst == .idle && r.write.isNone

/-! ## The cold-start scan (R143) -/

/-- The rows of a block, or none where one fails at both levels. -/
def readBlock (b : Block) : Option (List Byte) :=
  let rows := readRows b
  if rows.any RowRead.isFailed then none else some (rows.flatMap RowRead.data)

/-- The data bytes of `n` blocks from `addr`, or none where a row fails at both levels. -/
def readBlocks (store : List Block) (addr : Nat) : Nat → Option (List Byte)
  | 0 => some []
  | n + 1 =>
    match readBlock (blockAt store addr), readBlocks store (addr + 1) n with
    | some x, some y => some (x ++ y)
    | _, _ => none

/-- A record that the scan accepts at a block: a candidate whose rows all pass and whose sum matches
(R143). -/
def scanAccept (store : List Block) (b : Block) : Option Readable :=
  let first := readRow b 0
  let head := [0, 1, 2].flatMap (fun i => (readRow b i).data)
  let count := (head.getD 10 0).toNat
  match RKind.ofCode (head.getD 1 0).toNat with
  | none => none
  | some kind =>
    if !first.isFailed && head.getD 0 0 == validMark && 1 ≤ count && count ≤ 8
        && b.addr % Config.sectorBlocks + count ≤ Config.sectorBlocks then
      match readBlocks store b.addr count with
      | none => none
      | some data =>
        if sumMatches data then
          some ⟨b.addr, kind, fromBe ((data.drop 2).take 4), fromBe ((data.drop 6).take 4), count,
            fromBe ((data.drop 11).take 4)⟩
        else none
    else none

/-- The blocks that a voided record at a block has, if it is one whose block count can be read
(R143). A count outside 1 to 8, or one that does not fit the sector, is taken as one that cannot be
read, so that the scan steps one block on (DESIGN CHOICE: log 32). -/
def scanVoided (b : Block) : Option Nat :=
  let head := [0, 1].flatMap (fun i => (readRow b i).data)
  let count := (head.getD 10 0).toNat
  if head.getD 0 0 == 0#8 && !(readRow b 1).isFailed && 1 ≤ count && count ≤ 8
      && b.addr % Config.sectorBlocks + count ≤ Config.sectorBlocks then some count else none

/-- The scan over the blocks that do not read erased, in order; `skip` is the first block not yet
stepped over (R143). It steps over all the blocks of a record that it accepts (DEDUCED: log 32). -/
def scanFrom (store : List Block) (half : List Nat) : List Block → Nat → List Readable
  | [], _ => []
  | b :: rest, skip =>
    if b.addr < skip || half.contains (sectorOf b.addr) then scanFrom store half rest skip
    else
      match scanAccept store b with
      | some x => x :: scanFrom store half rest (b.addr + x.blocks)
      | none =>
        match scanVoided b with
        | some n => scanFrom store half rest (b.addr + n)
        | none => scanFrom store half rest (b.addr + 1)

/-- The accepted record with the highest sequence number; of two with the same, the one at the lower
address (R143; DESIGN CHOICE: log 15). -/
def highest (l : List Readable) : Option Readable :=
  l.foldl (fun m x =>
    match m with
    | none => some x
    | some y => if y.seq < x.seq then some x else some y) none

/-- Every block from an address to the end of its sector reads erased; a sector whose erase was cut
short does not (R143). -/
def erasedFrom (store : List Block) (half : List Nat) (h : Nat) : Bool :=
  !half.contains (sectorOf h)
    && store.all (fun b => sectorOf b.addr != sectorOf h || b.addr < h || b.readsErased)

/-- The head that the scan finds (step 2 of R143): the block after the record's last block, or block 0
of the next sector in store order where a block from there to the end of its sector does not read
erased. The sector is that of the block after, also where the record ends its own sector (log 15). -/
def scanHead (store : List Block) (half : List Nat) (x : Readable) : Nat :=
  let h := (x.addr + x.blocks) % Config.storeBlocks
  if erasedFrom store half h then h else nextSector h

/-- Accepted records in store order, which starts at the sector after the head's (R143). The head's own
sector comes last as a whole, the blocks at and past the head with it, where R127's order has ended
(DESIGN CHOICE: log 47). -/
def storeOrder (head : Nat) (l : List Readable) : List Readable :=
  (List.range Config.sectorCount).flatMap (fun k =>
    l.filter (fun x => sectorOf x.addr == (sectorOf head + 1 + k) % Config.sectorCount))

/-- Step 3 of R143: the records kept and the records voided, in store order. -/
def keepRising : List Readable → Nat → List Readable × List Readable
  | [], _ => ([], [])
  | x :: rest, last =>
    if last < x.seq then
      let (k, v) := keepRising rest x.seq
      (x :: k, v)
    else
      let (k, v) := keepRising rest last
      (k, x :: v)

/-- A sector's entry as the scan rebuilds it (step 4 of R143). -/
def scanSector (store : List Block) (half : List Nat) (kept : List Readable) (sec : Nat) : Sector :=
  if erasedFrom store half (sec * Config.sectorBlocks) then .erased
  else .inUse ((kept.find? (fun x => sectorOf x.addr == sec)).map Readable.seq)

/-- The end of the cold-start scan (R143). The walk of step 3 begins at the number 0, below R126's range,
so that a record that reads 0 is voided wherever it stands (DESIGN CHOICE: log 47). -/
def scanEnd (r : Rws) : Rws :=
  let found := scanFrom r.store r.halfErased r.store 0
  let top := highest found
  let head := match top with | none => 0 | some x => scanHead r.store r.halfErased x
  let topSeq := match top with | none => 0 | some x => x.seq
  let (kept, voided) :=
    if topSeq = Config.top32 then ([], found) else keepRising (storeOrder head found) 0
  let store := voided.foldl (fun st x => programBlock st x.addr voidPattern) r.store
  { r with
    store := store
    head := head
    sectors := (List.range Config.sectorCount).map (scanSector store r.halfErased kept)
    readable := kept
    earliest := earliestOf kept
    nextSeq := if topSeq = Config.top32 then 1 else topSeq + 1
    scanning := false
    accepting := true }

/-! ## READ LOG (R139, R140) -/

/-- The readable record with the smallest sequence number at or above `n` (R139). -/
def Rws.findLog (r : Rws) (n : Nat) : Option Readable :=
  (r.readable.filter (fun x => n ≤ x.seq)).foldl (fun m x =>
    match m with
    | none => some x
    | some y => if x.seq < y.seq then some x else some y) none

/-- The rows of blocks `k` on of a record, as read. -/
def Rws.rowsOf (r : Rws) (x : Readable) (k n : Nat) : List RowRead :=
  (List.range n).flatMap (fun i => readRows (blockAt r.store (x.addr + k + i)))

/-- A record's part count: 1 for 1 to 3 blocks, 2 for 4 to 6, 3 for 7 or 8 (R139). -/
def partCount (blocks : Nat) : Nat := (blocks + 2) / 3

/-- The reply to READ LOG (R139, R140, R203); with no record a kind byte of 0 stands before the
sequence figures, and in a part that is not the last the sum mark is 0, absent (DEDUCED: log 10). -/
def logReply (seq part : Nat) (r : Rws) : Reply :=
  let figures := opt0 4 r.earliest ++ be 4 r.nextSeq
    ++ listOf (fun x => be 4 x.seq) r.queue ++ opt0 4 (r.slot.map Record.seq)
  if r.scanning then .refuse .busy
  else if 2 < part then .refuse .range
  else
    match r.findLog seq with
    | none => .ok (be 1 0 ++ figures)
    | some x =>
      if partCount x.blocks ≤ part then .refuse .range
      else
        let rows := r.rowsOf x (3 * part) (min 3 (x.blocks - 3 * part))
        let status :=
          if rows.any RowRead.isFailed then 3 else if rows.any RowRead.isWeak then 2 else 1
        let sumMark :=
          if part + 1 = partCount x.blocks then
            (if sumMatches ((r.rowsOf x 0 x.blocks).flatMap RowRead.data) then 1 else 2)
          else 0
        .ok (be 1 x.kind.code ++ be 4 x.seq ++ be 3 x.job ++ be 1 x.blocks ++ be 4 x.ts
          ++ be 1 (partCount x.blocks) ++ rows.flatMap RowRead.data ++ be 1 status ++ be 1 sumMark
          ++ figures)

end Sys2Proof.Machine
end

