-- ==== Sys2Proof/Machine/Billing.lean ====
section
/-! DEFINITION. The billing unit's operations: the category of a second (R145 to R148), the accumulator
sets (R149 to R151), the outbox (R165), and tickets (R166 to R171). -/

namespace Sys2Proof.Machine

/-! ## The category of a second -/

/-- The job is OPEN or SUSPENDED. -/
def Bu.live (b : Bu) : Bool := b.jobSt == .opened || b.jobSt == .suspended

/-- The trip record is present and ACTIVE (R97). -/
def Hs.tripActive (h : Hs) : Bool :=
  match h.trip with
  | some t => t.ended.isNone
  | none => false

/-- An operation record is present with its trip mark clear (R145). -/
def Hs.loneOp (h : Hs) : Bool :=
  match h.op with
  | some o => !o.trip
  | none => false

/-- The rotating indication (R5). -/
def Sfe.rotating (f : Sfe) : Bool := f.rotTimer.isSome

/-- The category, by the first condition that holds (R145). -/
def decideCategory (s : State) : Category :=
  if s.bu.jobSt = .suspended then .held
  else if s.bu.breakdown.isSome then .breakdown
  else if s.cm.lossLatch.isSome || s.cm.gainLatch.isSome then .remediation
  else if s.cm.mon = .watchEntry || s.cm.mon = .holeWatch then .holeWatch
  else if s.hs.tripActive then .tripping
  else if s.hs.loneOp then .connection
  else if s.sfe.rotating && s.dib.dstate != .fault then
    (if s.dib.hwm ≤ s.dib.depth + Config.depthTolerance then .drilling else .reaming)
  else if !s.cm.quiet then .circulating
  else .standby

/-! ## The accumulator sets -/

/-- Adds to one entry of a list of 32-bit counts. -/
def addAt (l : List Nat) (i n : Nat) : List Nat := l.modify i (addTop32 · n)

def Accum.addTime (c : Category) (n : Nat) (a : Accum) : Accum :=
  { a with time := addAt a.time (c.code - 1) n }

def Accum.addMat (item n : Nat) (a : Accum) : Accum :=
  { a with mats := addAt a.mats (item - 1) n }

def Accum.addFootage (parts : List Nat) (a : Accum) : Accum :=
  { a with footage := a.footage.zipWith addTop32 parts }

/-- Adds the same to both sets (R149). -/
def Bu.both (f : Accum → Accum) (b : Bu) : Bu := { b with totals := f b.totals, since := f b.since }

/-- Seconds accrued to one category in both sets, and to the open seconds (R148, R196). -/
def Bu.accrue (c : Category) (n : Nat) (b : Bu) : Bu :=
  { (b.both (Accum.addTime c n)) with openSecs := addTop32 b.openSecs n }

/-- A second tick: the category comes into force, and the second is accrued in OPEN and SUSPENDED
(R145, R148). -/
def classify (s : State) : State :=
  let c := decideCategory s
  let b := { s.bu with category := c }
  s.setBu (if b.live then b.accrue c 1 else b)

/-- A place of the tariff table (R159). -/
def Bu.tariffAt (b : Bu) (id : Nat) : Option Tariff := b.tariffs.getD (id - 1) none

/-- The tariff of the job in the record. -/
def Bu.jobTariff (b : Bu) : Option Tariff := b.job.bind (fun j => b.tariffAt j.tariff)

/-- The overlap of the span from `h0` to `h1` with each band, given the bands' lower bounds; the last
band has no upper end (R150). -/
def bandParts (h0 h1 : Nat) : List Nat → List Nat
  | [] => []
  | [a] => [h1 - max h0 a]
  | a :: b :: rest => (min h1 b - max h0 a) :: bandParts h0 h1 (b :: rest)

/-- A rise of the high-water mark accrues footage, split at the bands of the job's tariff (R150). -/
def accrueFootage (h0 h1 : Nat) (s : State) : State :=
  match s.bu.jobTariff with
  | some t => s.setBu (s.bu.both (Accum.addFootage (bandParts h0 h1 (t.bands.map Prod.fst))))
  | none => s

/-! ## Bodies of records (R204) -/

/-- Fills unused places up to `n` with the absence marker, `w` bytes each (R204); a unit name, which has
no marker of its own, is filled like the price behind it (DESIGN CHOICE: log 48). -/
def padPlaces (n w used : Nat) : List Byte := List.replicate ((n - used) * w) 0xFF#8

/-- A tariff's item with a code. -/
def Tariff.item (t : Tariff) (code : Nat) : Option Item := t.items.find? (fun i => i.code == code)

/-- The item codes 1 to 16. -/
def allItems : List Nat := [1, 2, 3, 4, 5, 6, 7, 8, 9, 10, 11, 12, 13, 14, 15, 16]

/-- A tariff's item set: code c in bit c - 1 (R202). -/
def Tariff.itemSet (t : Tariff) : Nat :=
  (allItems.map (fun c => if (t.item c).isSome then 2 ^ (c - 1) else 0)).sum

/-- The encodings of a tariff's parts that WRITE TARIFF, READ TARIFF and JOB OPENED share (R202). -/
def Tariff.nameBytes (t : Tariff) : List Byte := be 12 t.name.toNat
def Tariff.rateBytes (t : Tariff) : List Byte := t.rates.flatMap (be 3)
def Tariff.bandBytes (t : Tariff) : List Byte := t.bands.flatMap (fun b => be 3 b.1 ++ be 3 b.2)
def Item.bytes (i : Item) : List Byte := be 6 i.unit.toNat ++ be 3 i.price

/-- The body of a JOB OPENED record (R165, R204). -/
def jobOpenedBody (t : Tariff) (start depth : Nat) (offset : Int) : List Byte :=
  be 1 t.id ++ t.nameBytes ++ be 1 t.bands.length ++ be 2 t.itemSet ++ t.rateBytes
    ++ t.bandBytes ++ padPlaces 8 6 t.bands.length
    ++ allItems.flatMap (fun c => match t.item c with | some i => i.bytes | none => padPlaces 1 9 0)
    ++ be 4 start ++ be 4 depth ++ beInt 4 offset

/-- The body of a TICKET record: its head, then a place for every band, category and item (R165,
R204). -/
def ticketBody (k : Ticket) (t : Tariff) (a : Accum) : List Byte :=
  be 4 k.number ++ be 1 k.kind.code ++ be 1 k.tariff ++ be 4 k.fromSec ++ be 4 k.toSec
    ++ be 5 k.total ++ mark k.saturated
    ++ (t.bands.zip a.footage).flatMap (fun x => be 3 x.1.1 ++ be 4 x.2 ++ be 3 x.1.2)
    ++ padPlaces 8 10 t.bands.length
    ++ (a.time.zip t.rates).flatMap (fun x => be 4 x.1 ++ be 3 x.2)
    ++ allItems.flatMap (fun c =>
      match t.item c with
      | some i => be 4 (a.mats.getD (c - 1) 0) ++ be 3 i.price
      | none => padPlaces 1 7 0)

/-! ## The outbox (R165) -/

/-- A record of the outbox as it is handed over: kind, job, body, fresh-sector mark, item number. -/
def OutRec.handOver (r : OutRec) (s : State) : State × Option Nat :=
  match r with
  | .jobOpened job body => Machine.handOver .jobOpened job body true none s
  | .ticket number job body => Machine.handOver .ticket job body false (some number) s

/-- The sequence number that a record took is stored with its ticket (R165). -/
def OutRec.taken (r : OutRec) (seq : Nat) (b : Bu) : Bu :=
  match r with
  | .jobOpened _ _ => b
  | .ticket number _ _ =>
    { b with
      tickets := b.tickets.map (fun t => if t.number = number then { t with recSeq := some seq } else t) }

/-- Hands over the outbox's records, the oldest first, until one is not taken (R165); `n` bounds how
many. -/
def handOutbox : Nat → State → State
  | 0, s => s
  | n + 1, s =>
    match s.bu.outbox with
    | [] => s
    | r :: rest =>
      let (s, seq) := r.handOver s
      match seq with
      | none => s
      | some q => handOutbox n (s.setBu { (r.taken q s.bu) with outbox := rest })

/-- The billing unit at a freed-place report (R131, R165). -/
def buFreed (s : State) : State := handOutbox s.bu.outbox.length s

/-- A record joins the outbox, and is handed over if it is the only one (R165). -/
def joinOutbox (r : OutRec) (s : State) : State :=
  let s' := s.setBu { s.bu with outbox := s.bu.outbox ++ [r] }
  if s.bu.outbox.isEmpty then handOutbox 1 s' else s'

/-! ## Tickets -/

/-- The ticket list has a free place (R166). -/
def Bu.listFree (b : Bu) : Bool :=
  b.tickets.length < Config.ticketTop
    && !(b.nextTicket == Config.top32 && b.tickets.any (fun t => t.number == Config.top32))

/-- A line's charge before it is held: rounded to the nearest cent, halves up (R168). -/
def chargeOf (qty rate round unit : Nat) : Nat := (qty * rate + round) / unit

/-- A line, its charge held at the top (R168). -/
def mkLine (what : LineOf) (qty rate round unit : Nat) : Line :=
  ⟨what, qty, rate, min (chargeOf qty rate round unit) Config.moneyTop⟩

/-- A line's charge was held (R168). -/
def Line.held (l : Line) : Bool :=
  match l.what with
  | .band _ _ => Config.moneyTop < chargeOf l.qty l.rate 500 1000
  | .time _ => Config.moneyTop < chargeOf l.qty l.rate 1800 3600
  | .item _ _ => Config.moneyTop < chargeOf l.qty l.rate 5 10

/-- The lines of a ticket: one for each band, category and item whose quantity is not 0 (R167). -/
def ticketLines (t : Tariff) (a : Accum) : List Line :=
  ((t.bands.zip a.footage).mapIdx (fun i x => mkLine (.band (i + 1) x.1.1) x.2 x.1.2 500 1000)
    ++ (allCategories.zip (a.time.zip t.rates)).map (fun x => mkLine (.time x.1) x.2.1 x.2.2 1800 3600)
    ++ (allItems.filterMap t.item).map (fun i =>
        mkLine (.item i.code i.unit) (a.mats.getD (i.code - 1) 0) i.price 5 10)).filter
    (fun l => l.qty != 0)

/-- The ticket that the set `a` gives (R167, R168). -/
def mkTicket (b : Bu) (j : JobRec) (t : Tariff) (kind : TicketKind) (toSec : Nat) : Ticket :=
  let lines := ticketLines t b.since
  let sum := (lines.map Line.charge).sum
  { job := j.number, number := b.nextTicket, kind := kind, tariff := j.tariff
    fromSec := b.sinceFrom.getD 0, toSec := toSec, lines := lines
    total := min sum Config.moneyTop
    saturated := lines.any Line.held || Config.moneyTop < sum
    recSeq := none }

/-- Builds a ticket from the since-last-ticket set (R167). -/
def buildTicket (kind : TicketKind) (toSec : Nat) (s : State) : State :=
  match s.bu.job, s.bu.jobTariff with
  | some j, some t =>
    let k := mkTicket s.bu j t kind toSec
    let b := { s.bu with
      since := .zero t.bands.length
      sinceFrom := some toSec
      tickets := s.bu.tickets ++ [k]
      nextTicket := min (s.bu.nextTicket + 1) Config.top32 }
    (joinOutbox (.ticket k.number k.job (ticketBody k t s.bu.since)) (s.setBu b)).raise
      (.ticketReady k.job k.number k.kind k.total k.saturated)
  | _, _ => s

/-- Builds the FINAL ticket if it waits and the list has a place, and the job returns to NONE
(R171). -/
def testFinal (s : State) : State :=
  if s.bu.jobSt = .closing && s.bu.finalWaiting && s.bu.listFree then
    let s := buildTicket .final ((s.bu.job.bind JobRec.closeSec).getD 0) s
    s.setBu { s.bu with finalWaiting := false, jobSt := .noJob }
  else s

/-- Some job figures are in use by a tariff's place: the tariff is in use (R159). -/
def Bu.inUse (b : Bu) (id : Nat) : Bool :=
  b.jobSt != .noJob && (match b.job with | some j => j.tariff == id | none => false)

end Sys2Proof.Machine
end

