-- ==== Sys2Proof/Machine/Rods.lean ====
section
/-! DEFINITION. The rod registry, the string, the carousel table and the choice of slots (chapter 3),
without the loader's requests to the arbiter. -/

namespace Sys2Proof.Machine

/-! ## The registry -/

/-- An entry in use. -/
def Rrc.rod (r : Rrc) (i : Nat) : Option Rod := r.registry.getD i none

/-- The entry in use with a serial, whatever its location (R45). -/
def Rrc.find (r : Rrc) (serial : Serial) : Option Nat :=
  r.registry.findIdx? (fun o => match o with | some rod => rod.serial == serial | none => false)

/-- Changes an entry in use. -/
def Rrc.modRod (r : Rrc) (i : Nat) (f : Rod → Rod) : Rrc :=
  { r with registry := r.registry.modify i (Option.map f) }

/-- Changes a rod's recorded location. -/
def Rrc.moveRod (r : Rrc) (i : Nat) (l : Loc) : Rrc := r.modRod i (fun rod => { rod with loc := l })

/-- The serial of an entry, for replies and notices; 0 for one that is FREE. -/
def Rrc.serialOf (r : Rrc) (i : Nat) : Serial := ((r.rod i).map Rod.serial).getD 0

/-- The entry for a new rod: the lowest FREE one, or else the oldest retired one, with the retired
list after it (R45). -/
def Rrc.newEntry (r : Rrc) : Option (Nat × List Nat) :=
  match r.registry.findIdx? Option.isNone with
  | some i => some (i, r.retired)
  | none =>
    match r.retired with
    | i :: rest => some (i, rest)
    | [] => none

/-- A rod's worn mark set, with its notice (R48, R49, R50). -/
def wearOut (i : Nat) (c : WornCause) (s : State) : State :=
  match s.rrc.rod i with
  | none => s
  | some rod =>
    (s.setRrc (s.rrc.modRod i (fun x => { x with worn := true }))).raise
      (.rodWorn rod.serial c rod.conns rod.dist)

/-- Counts a connection of a rod (R48). -/
def countConnection (i : Nat) (s : State) : State :=
  let s := s.setRrc (s.rrc.modRod i (fun rod => { rod with conns := min (rod.conns + 1) 65535 }))
  match s.rrc.rod i with
  | some rod => if !rod.worn && s.pConnLimit ≤ rod.conns then wearOut i .connections s else s
  | none => s

/-- Adds `x` mm of drilled distance to a rod. -/
def addDistance (x : Nat) (i : Nat) (s : State) : State :=
  s.setRrc (s.rrc.modRod i (fun rod => { rod with dist := addTop32 rod.dist x }))

/-- Marks a rod worn by its drilled distance, if it is (R49). -/
def testDistance (i : Nat) (s : State) : State :=
  match s.rrc.rod i with
  | some rod => if !rod.worn && s.pDistLimitM * 1000 ≤ rod.dist then wearOut i .distance s else s
  | none => s

/-- A rise of the high-water mark by `x` mm: every rod in the string gains it, and then the rods it
wears are marked, in ascending string position (R49). -/
def drilledDistance (x : Nat) (s : State) : State :=
  let rods := s.rrc.string.map Prod.fst
  let s := rods.foldl (fun s i => addDistance x i s) s
  rods.foldl (fun s i => testDistance i s) s

/-- Tests one entry against both limits in force (R50). -/
def testLimits (s : State) (i : Nat) : State :=
  match s.rrc.rod i with
  | some rod =>
    if rod.loc != .retired && !rod.worn
        && (s.pConnLimit ≤ rod.conns || s.pDistLimitM * 1000 ≤ rod.dist) then
      wearOut i .limitChange s
    else s
  | none => s

/-- The entry numbers 0 to 159. -/
def allEntries : List Nat := List.range Config.registrySize

/-- A limit has been stored with a lower value: every entry is tested, in ascending number (R50). -/
def testAllLimits (s : State) : State := allEntries.foldl testLimits s

/-! ## The string -/

/-- The string length in mm (R51). -/
def State.stringLength (s : State) : Nat :=
  s.pBottomAssembly
    + (s.rrc.string.map (fun p => ((s.rrc.rod p.1).map Rod.length).getD 0)).sum

/-- The rod at the top position (R51). -/
def Rrc.top (r : Rrc) : Option Nat := r.string.getLast?.map Prod.fst

/-- The size class of the string: that of the rod at the top position (R51). -/
def Rrc.stringClass (r : Rrc) : Option Nat := (r.top.bind r.rod).map Rod.cls

/-- The rod in the arm is pushed on the string, with the torque of its connection (R47, R51). -/
def Rrc.push (r : Rrc) (i : Nat) (torque : Option Nat) : Rrc :=
  { (r.moveRod i (.string (r.string.length + 1))) with
    string := r.string ++ [(i, torque)], arm := none }

/-- The top rod is popped from the string into the arm (R47, R51). -/
def Rrc.pop (r : Rrc) : Rrc :=
  match r.top with
  | some i => { (r.moveRod i .arm) with string := r.string.dropLast, arm := some i }
  | none => r

/-- A rod's size class fits the string: it equals the string's, or the string is empty (R55, R60). -/
def Rrc.fitsString (r : Rrc) (cls : Nat) : Bool :=
  match r.stringClass with
  | none => true
  | some c => c == cls

/-! ## The carousel -/

def Rrc.slotAt (r : Rrc) (n : Nat) : Slot := r.slots.getD n .empty

def Rrc.putSlot (r : Rrc) (n : Nat) (x : Slot) : Rrc := { r with slots := r.slots.set n x }

/-- A rod's location is a slot. -/
def Rrc.rodInSlot (r : Rrc) (i n : Nat) : Bool :=
  match r.rod i with
  | some rod => rod.loc == .slot n
  | none => false

/-- Frees a reservation: the slot is left LOADED if its rod is still in it, and EMPTY otherwise
(R52). -/
def Rrc.freeSlot (r : Rrc) (n : Nat) : Rrc :=
  match r.slotAt n with
  | .reserved _ _ i => r.putSlot n (if r.rodInSlot i n then .loaded i else .empty)
  | _ => r

/-- The slot numbers searched from the index position, ascending, wrapping from 39 to 0 (R54). -/
def Rrc.searchOrder (r : Rrc) : List Nat :=
  (List.range Config.slotCount).map (fun k => (r.index + k) % Config.slotCount)

/-- The nearest slot of a kind (R54). -/
def Rrc.nearest (r : Rrc) (p : Slot → Bool) : Option Nat :=
  r.searchOrder.find? (fun n => p (r.slotAt n))

def Slot.isEmpty : Slot → Bool
  | .empty => true
  | _ => false

/-- A slot is eligible for ADD ROD: LOADED and not reserved, its rod not worn and of the string's
class (R55). -/
def Rrc.eligible (r : Rrc) : Slot → Bool
  | .loaded i =>
    match r.rod i with
    | some rod => !rod.worn && r.fitsString rod.cls
    | none => false
  | _ => false

/-- The route to a slot, the shorter way round (R54). -/
def routeTo (index target : Nat) : StepDir × Nat :=
  let a := (target + Config.slotCount - index % Config.slotCount) % Config.slotCount
  if a ≤ 20 then (.ascending, a) else (.descending, Config.slotCount - a)

/-- The slot one step on (R53). -/
def stepFrom (d : StepDir) (n : Nat) : Nat :=
  match d with
  | .ascending => (n + 1) % Config.slotCount
  | .descending => (n + (Config.slotCount - 1)) % Config.slotCount

/-- The choice of a slot for ADD ROD: its refusal, or the slot with its rod (R55). -/
def Rrc.chooseAdd (r : Rrc) (named : Option Nat) : Except Reason (Nat × Nat) :=
  if Config.stringTop ≤ r.string.length then .error .listFull
  else
    match named with
    | some n =>
      if Config.slotCount ≤ n then .error .range
      else
        match r.slotAt n with
        | .empty => .error .slotEmpty
        | .reserved _ _ _ => .error .slotOccupied
        | .loaded i => if r.eligible (.loaded i) then .ok (n, i) else .error .interlock
    | none =>
      match r.nearest r.eligible with
      | none => .error .slotEmpty
      | some n =>
        match r.slotAt n with
        | .loaded i => .ok (n, i)
        | _ => .error .slotEmpty

/-- The choice of a slot for REMOVE ROD: its refusal, or the slot with the top rod (R55). -/
def Rrc.chooseRemove (r : Rrc) (named : Option Nat) : Except Reason (Nat × Nat) :=
  match r.top with
  | none => .error .state
  | some i =>
    match named with
    | some n =>
      if Config.slotCount ≤ n then .error .range
      else if (r.slotAt n).isEmpty then .ok (n, i) else .error .slotOccupied
    | none =>
      match r.nearest Slot.isEmpty with
      | none => .error .slotOccupied
      | some n => .ok (n, i)

/-- The choice for an operation (R55). -/
def Rrc.choose (r : Rrc) (op : Op) (named : Option Nat) : Except Reason (Nat × Nat) :=
  match op with
  | .addRod => r.chooseAdd named
  | .removeRod => r.chooseRemove named

/-- The reservation of the chosen slot to HANDLING (R55). -/
def Rrc.reserveFor (r : Rrc) (op : Op) (slot rod : Nat) : Rrc :=
  r.putSlot slot (.reserved .handling (match op with | .addRod => .take | .removeRod => .receive) rod)

/-- INDEX LOCKED taken off: a step is in progress (R53). -/
def Rrc.stepBegun (r : Rrc) : Rrc := { r with stepMark := true }

/-- INDEX LOCKED taken on: with the mark set, one step is counted (R53). -/
def Rrc.stepCounted (r : Rrc) : Rrc :=
  if r.stepMark then { r with index := stepFrom r.stepDir r.index, stepMark := false } else r

end Sys2Proof.Machine
end

