-- ==== Sys2Proof/Machine/Depth.lean ====
section
/-! DEFINITION. The depth and interval builder's operations (chapter 6): the depth state and bit depth,
the high-water mark, intervals and their closing, the sample queue and the commit of its head. -/

namespace Sys2Proof.Machine

/-! ## Entries and records -/

/-- An entry is ready (R122). -/
def Entry.ready (e : Entry) : Bool :=
  e.flush || (e.st != .awaiting && (e.iv.final || e.graceOver))

/-- The due and grace expiry seconds, present in SAMPLE DUE (R118). -/
def Entry.due (e : Entry) : Option (Nat × Nat) :=
  match e.st with
  | .awaiting => none
  | .sampleDue d g => some (d, g)

/-- A bit of a flags byte. -/
def flagBit (n : Nat) (b : Bool) : Nat := if b then 2 ^ n else 0

/-- The flags of an interval in bits 0 to 5, and bit 6 for the seconds present (R204). -/
def Interval.flagByte (iv : Interval) (secs : Bool) : Nat :=
  flagBit 0 iv.merged + flagBit 1 iv.span + flagBit 2 iv.unsampled + flagBit 3 iv.powerGap
    + flagBit 4 iv.slip + flagBit 5 iv.final + flagBit 6 secs

/-- The mean pressure, absent while the count is 0 (R112). -/
def Interval.meanPressure (iv : Interval) : Option Nat :=
  if iv.pCount = 0 then none else some (iv.pSum / iv.pCount)

/-- The four material places of an INTERVAL record; an unused place has item 0 (R204), and its tenths are
0 (DESIGN CHOICE: log 48). -/
def matPlaces (mats : List (Nat × Nat)) : List Byte :=
  (mats.take 4).flatMap (fun m => be 1 m.1 ++ be 4 m.2)
    ++ List.replicate ((4 - mats.length) * 5) 0#8

/-- The body of an INTERVAL record handed over at the second `now` (R204). A due and a grace expiry second
that bit 6 of the flags marks absent are 0 (DESIGN CHOICE: log 48); a grace expiry second past the top of
the clock is written as its low 32 bits (DESIGN CHOICE: log 38). -/
def Entry.body (e : Entry) (now : Nat) : List Byte :=
  let v := e.iv
  let d := e.due.getD (0, 0)
  be 2 v.number ++ be 4 v.top ++ be 4 e.bottom ++ be 2 v.length ++ be 4 v.openSec ++ be 4 e.closeSec
    ++ be 4 v.drillSecs ++ be 6 v.pSum ++ be 4 v.pCount ++ optF 2 v.peak ++ be 4 v.loss ++ be 4 v.gain
    ++ matPlaces v.mats ++ be 4 v.other ++ optF 4 e.rop ++ opt0 1 v.lith ++ opt0 2 v.bag
    ++ opt0 1 v.remark ++ be 6 e.lag ++ be 4 d.1 ++ be 4 d.2 ++ be 4 now ++ be 6 e.cumClose
    ++ be 1 (v.flagByte e.due.isSome)

/-- Changes the open interval, if there is one. -/
def Dib.onOpen (f : Interval → Interval) (d : Dib) : Dib := { d with openIv := d.openIv.map f }

/-! ## The sample queue's head -/

/-- Hands the head's record over; it leaves the queue if it is taken (R122). -/
def commitHead (s : State) : State × Bool :=
  match s.dib.queue with
  | [] => (s, false)
  | e :: rest =>
    let e := if e.ready then e else { e with iv := { e.iv with unsampled := true } }
    let (s, n) := handOver .interval e.iv.job (e.body s.now) false (some e.iv.number) s
    match n with
    | none => (s, false)
    | some _ => (s.setDib { s.dib with queue := rest }, true)

/-- Tests the head for commit, and each new head after it (R122); `n` bounds how many. -/
def testHeads : Nat → State → State
  | 0, s => s
  | n + 1, s =>
    match s.dib.queue with
    | [] => s
    | e :: _ =>
      if e.ready then
        let (s, taken) := commitHead s
        if taken then testHeads n s else s
      else s

/-- Tests the head for commit (R122). -/
def testHead (s : State) : State := testHeads s.dib.queue.length s

/-- A closing must force the head out: 16 entries, or an entry of an earlier job (R115). -/
def Dib.mustForce (d : Dib) : Bool :=
  Config.sampleQueueTop ≤ d.queue.length || d.queue.any Entry.flush

/-- Makes room for a closing, forcing the head out where that is needed; answers whether there is
room (R115). With the queue full, as it counts once the sequence numbers are exhausted, nothing is handed
over, so the closing itself raises no STORE FAULT (DESIGN CHOICE: log 46). -/
def makeRoom (s : State) : State × Bool :=
  if !s.dib.mustForce then (s, true)
  else if !s.rws.hasPlace then (s, false)
  else
    let s := testHead (commitHead s).1
    (s, !s.dib.mustForce)

/-! ## Intervals -/

/-- The interval number after one (R111). -/
def nextNumber (n : Nat) : Nat := if n < 65535 then n + 1 else Config.intervalAfterTop n

/-- Opens the interval with the next number and the given top (R111). -/
def openInterval (top : Nat) (s : State) : State :=
  let n := s.dib.nextInterval
  s.setDib { s.dib with
    nextInterval := nextNumber n
    openIv := some
      { job := s.dib.jobNo.getD 0, number := n, top := top, length := s.pIntervalLength
        boundary := top + s.pIntervalLength, openSec := s.now, drillSecs := 0, pSum := 0, pCount := 0
        peak := none, loss := 0, gain := 0, mats := [], other := 0, merged := false, span := false
        unsampled := false, powerGap := false, slip := false, lith := none, bag := none, remark := none
        final := false } }

/-- The mean ROP in mm per minute, absent with no drilling second (R116). -/
def meanRop (length secs : Nat) : Option Nat := if secs = 0 then none else some (length * 60 / secs)

/-- The entry that an interval closed at a bottom becomes (R116, R118). A lag mark past the six bytes
of its field is kept as the sum that it is (DESIGN CHOICE: log 40). -/
def closedEntry (iv : Interval) (bottom : Nat) (s : State) : Entry where
  iv := iv
  bottom := bottom
  closeSec := s.now
  rop := meanRop (bottom - iv.top) iv.drillSecs
  cumClose := s.dib.cumLast
  lag := s.dib.cumLast + bottom * s.pAnnular / 1000
  st := .awaiting
  graceDue := false
  graceOver := false
  flush := false

/-- Closes the open interval at a bottom; `goOn` says whether the next one opens (R116, R120). -/
def closeInterval (goOn : Bool) (bottom : Nat) (s : State) : State :=
  match s.dib.openIv with
  | none => s
  | some iv =>
    let e := closedEntry iv bottom s
    let s := (s.setDib { s.dib with queue := s.dib.queue ++ [e], openIv := none }).raise
      (.intervalClosed iv.job iv.number iv.top bottom e.rop iv.meanPressure
        (BitVec.ofNat 8 (iv.flagByte false)))
    if goOn then openInterval bottom s else s

/-- The greatest boundary of an interval that the high-water mark has reached (R114). -/
def Interval.lastBoundary (iv : Interval) (hwm : Nat) : Nat :=
  iv.top + (hwm - iv.top) / iv.length * iv.length

/-- Tests the closing boundary after a rise (R114). -/
def testBoundary (s : State) : State :=
  match s.dib.openIv with
  | none => s
  | some iv =>
    if s.dib.hwm < iv.boundary then s
    else
      let bottom := iv.lastBoundary s.dib.hwm
      let s := s.setDib (s.dib.onOpen (fun v => { v with span := v.span || iv.boundary < bottom }))
      let (s, room) := makeRoom s
      if room then closeInterval true bottom s
      else
        s.setDib (s.dib.onOpen (fun v => { v with merged := true, boundary := bottom + v.length }))

/-! ## Bit depth and the high-water mark -/

/-- A new bit depth is tested against the high-water mark in OPEN and SUSPENDED; a rise goes to
footage, to drilled distance and to the closing boundary (R109). -/
def testHwm (s : State) : State :=
  if s.bu.live && s.dib.hwm < s.dib.depth then
    let h0 := s.dib.hwm
    let h1 := s.dib.depth
    testBoundary (drilledDistance (h1 - h0)
      (accrueFootage h0 h1 (s.setDib { s.dib with hwm := h1 })))
  else s

/-- String length minus head height minus depth offset, before flooring (R105). -/
def Dib.figure (d : Dib) : Int := d.lenLast - (d.headLast.getD 0 : Nat) - d.offset

/-- Takes a bit depth, and tests it (R105, R109). -/
def takeDepth (x : Int) (s : State) : State := testHwm (s.setDib { s.dib with depth := x.toNat })

/-- While depth is LIVE, the bit depth is worked out again (R105). -/
def recompute (s : State) : State :=
  if s.dib.dstate = .live then takeDepth s.dib.figure s else s

/-- On entry to LIVE the computed depth is taken, or a slip is absorbed into the offset (R106). -/
def enterLive (s : State) : State :=
  let fig := s.dib.figure
  let diff := fig - (s.dib.depth : Int)
  if s.dib.unset then takeDepth fig (s.setDib { s.dib with unset := false })
  else if -(Config.depthTolerance : Int) ≤ diff ∧ diff ≤ (Config.depthTolerance : Int) then
    takeDepth fig s
  else
    let d := { s.dib with offset := s.dib.offset + diff }
    (s.setDib (if s.bu.live then d.onOpen (fun v => { v with slip := true }) else d)).raise
      (.depthSlip diff d.offset d.depth)

/-- The depth state by R104's order. -/
def wantedDepth (s : State) : DState :=
  if s.hs.depthHold then .held
  else if s.dib.encFaulted then .fault
  else if !s.on .headConnected then .held
  else .live

/-- Decides the depth state afresh (R104). -/
def decideDepth (s : State) : State :=
  let d := wantedDepth s
  if d = s.dib.dstate then s
  else
    let s := s.setDib { s.dib with dstate := d }
    if d = .live then enterLive s else s

/-- A head height is delivered (R105, R123). -/
def dibHead (h : Nat) (s : State) : State :=
  recompute (s.setDib { s.dib with headLast := some h })

/-- The string length is delivered, if it has changed (R51, R105). -/
def deliverLength (s : State) : State :=
  let n := s.stringLength
  if n = s.dib.lenLast then s else recompute (s.setDib { s.dib with lenLast := n })

/-- A change of encoder state is delivered (R107); a change to GOOD carries the head height. -/
def dibEncoder (cause : Option EncCause) (s : State) : State :=
  let s := s.setDib
    { s.dib with
      encFaulted := cause.isSome
      headLast := if cause.isSome then s.dib.headLast else s.sfe.head }
  let s := decideDepth s
  s.raise (.depthFault cause s.dib.depth s.dib.dstate)

/-! ## What other blocks deliver -/

/-- The category of the second: drilling seconds (R112); and the entries whose grace expiry second
the clock has reached await their expiry (R119). -/
def dibTick (s : State) : State :=
  let d := s.dib
  let d :=
    if s.bu.category = .drilling then
      d.onOpen (fun v => { v with drillSecs := addTop32 v.drillSecs 1 })
    else d
  s.setDib { d with
    queue := d.queue.map (fun e =>
      match e.st with
      | .sampleDue _ g => if g ≤ s.now && !e.graceOver then { e with graceDue := true } else e
      | .awaiting => e) }

/-- A PUMP PRESSURE value delivered GOOD while the category in force is DRILLING (R112). The pressure
count and the drilling seconds stop at the top of 32 bits (DESIGN CHOICE: log 37). -/
def dibPressure (p : Nat) (s : State) : State :=
  if s.bu.category = .drilling then
    s.setDib (s.dib.onOpen (fun v => { v with pSum := v.pSum + p, pCount := addTop32 v.pCount 1 }))
  else s

/-- The peak torque of a connection (R113). -/
def dibTorque (t : Option Nat) (s : State) : State :=
  match t with
  | none => s
  | some x =>
    s.setDib (s.dib.onOpen (fun v => { v with peak := some (max x (v.peak.getD 0)) }))

/-- The top of a material quantity in tenths (R113). -/
def matTop : Nat := 999999999

/-- Adds a material to an interval's lines, or to its other quantity (R113). -/
def addMat (item qty : Nat) (v : Interval) : Interval :=
  if v.mats.any (fun m => m.1 == item) then
    { v with mats := v.mats.map (fun m => if m.1 = item then (m.1, min (m.2 + qty) matTop) else m) }
  else if v.mats.length < 4 then { v with mats := v.mats ++ [(item, min qty matTop)] }
  else { v with other := min (v.other + qty) matTop }

/-- Each entry whose lag mark is reached becomes SAMPLE DUE, in queue order (R119). The grace expiry
second is the sum as it stands, which the clock never reaches past its top (DESIGN CHOICE: log 38). -/
def fallDue (s : State) : Nat → List Entry → State × List Entry
  | _, [] => (s, [])
  | cum, e :: rest =>
    if e.st = .awaiting ∧ e.lag ≤ cum then
      let s' := s.raise (.sampleDue e.iv.number e.bottom s.now)
      let (s'', l) := fallDue s' cum rest
      (s'', { e with st := .sampleDue s.now (s.now + s.pGrace) } :: l)
    else
      let (s', l) := fallDue s cum rest
      (s', e :: l)

/-- A window close hands over its loss and gain amounts and the cumulative volume (R22, R113,
R119). -/
def dibWindow (cum loss gain : Nat) (s : State) : State :=
  let d := s.dib.onOpen (fun v => { v with loss := addTop32 v.loss loss, gain := addTop32 v.gain gain })
  let s := s.setDib { d with cumLast := cum }
  let (s', l) := fallDue s cum s.dib.queue
  testHead (s'.setDib { s'.dib with queue := l })

/-- The first entry whose grace expiry is still to be taken becomes ready (R119, R122). -/
def takeGrace : List Entry → List Entry
  | [] => []
  | e :: rest =>
    if e.graceDue then { e with graceDue := false, graceOver := true } :: rest else e :: takeGrace rest

/-- A step of the clock from `now` to `second` moves the grace expiry seconds that lay after it
(R155). One that the clock has passed and no tick has reached yet is neither moved nor expired (DEDUCED:
log 26). -/
def shiftGrace (now second : Nat) (e : Entry) : Entry :=
  match e.st with
  | .sampleDue d g =>
    if now < g && !e.graceOver then { e with st := .sampleDue d (second + (g - now)) } else e
  | .awaiting => e

/-! ## The job's beginning and end -/

/-- An entry of the earlier job takes the flush mark, and UNSAMPLED if it was not ready (R121). -/
def flushEntry (e : Entry) : Entry :=
  { e with flush := true, iv := { e.iv with unsampled := e.iv.unsampled || !e.ready } }

/-- The builder's part of OPEN JOB (R110, R121, R164). -/
def dibOpenJob (job : Nat) (start : Option Nat) (s : State) : State :=
  let x := start.getD (if s.dib.unset then 0 else s.dib.depth)
  let s := s.setDib
    { s.dib with
      jobNo := some job, jobStart := x, hwm := x, nextInterval := 1
      queue := s.dib.queue.map flushEntry }
  testHwm (openInterval x (testHead s))

/-- Closes the open interval at the high-water mark if there is room; none where there is not (R117,
R120). -/
def closeAtMark (goOn : Bool) (s : State) : Option State :=
  let (s', room) := makeRoom s
  if room then some (closeInterval goOn s'.dib.hwm s') else none

/-- The builder's part of CLOSE JOB: the interval closes, or is discarded, or there is no room
(R120). -/
def dibCloseJob (s : State) : Option State :=
  match s.dib.openIv with
  | none => some s
  | some iv =>
    if iv.top < s.dib.hwm then closeAtMark false s
    else some (s.setDib { s.dib with openIv := none })

end Sys2Proof.Machine
end

