-- ==== Sys2Proof/Machine/Hydraulics.lean ====
section
/-! DEFINITION. The auxiliary hydraulic arbiter (chapter 4): requests, the grant, the ends of motions,
the carousel guard; and the loader, its client (3.6). -/

namespace Sys2Proof.Machine

/-! ## Requests -/

/-- A client's rank in chain order (chapter 4). -/
def Client.rank : Client → Nat
  | .wellControl => 1 | .handling => 2 | .loader => 3 | .manual => 4

/-- The end switch of a function in a direction; INDEX has none (R64, R73). -/
def endSwitch : Func → Dir → Option Switch
  | .clamp, .first => some .clampClosed
  | .clamp, .second => some .clampOpen
  | .wrench, .first => some .wrenchGripped
  | .wrench, .second => some .wrenchOpen
  | .arm, .first => some .armAtCentre
  | .arm, .second => some .armAtCarousel
  | .diverter, .first => some .diverterOpen
  | .diverter, .second => some .diverterClosed
  | .index, _ => none

/-- The timeout of an index motion over a number of steps (R64). -/
def indexTimeout (steps : Nat) : Nat := Config.indexBaseMs + Config.indexStepMs * steps

/-- The timeout of a motion at its first grant (R64, R73). -/
def Req.timeout (r : Req) : Nat :=
  match r.target with
  | .jog _ => r.jogMs
  | _ =>
    match r.fn with
    | .clamp => 10000
    | .wrench => 12000
    | .arm => 15000
    | .diverter => 8000
    | .index => indexTimeout ((r.route.map Prod.snd).getD 0)

/-- A request record as it is made, never granted (R63). -/
def Req.new (c : Client) (fn : Func) (dir : Dir) (target : Target) : Req where
  client := c
  fn := fn
  dir := dir
  target := target
  left := none
  route := none
  jogMs := 0
  lockWait := none
  ownStep := false
  moved := false
  byMessage := false
  byDivert := false

/-- The direction of R64 in which the carousel steps. -/
def StepDir.dir : StepDir → Dir
  | .ascending => .first | .descending => .second

def Dir.step : Dir → StepDir
  | .first => .ascending | .second => .descending

/-- An index request to a slot, with its route from the index position now (R54, R64). -/
def State.indexReq (s : State) (c : Client) (slot : Nat) : Req :=
  let route := routeTo s.rrc.index slot
  { (Req.new c .index route.1.dir (.slot slot)) with route := some route }

/-- The requests that stand: holder, stack and waiting set (R63). -/
def Aha.standing (a : Aha) : List Req := a.holder.toList ++ a.stack ++ a.waiting

def Aha.stands (a : Aha) (c : Client) : Bool := a.standing.any (fun r => r.client == c)

/-- The client holds the grant. -/
def Aha.holds (a : Aha) (c : Client) : Bool :=
  match a.holder with
  | some r => r.client == c
  | none => false

/-- Changes a client's request record. -/
def Aha.modReq (c : Client) (f : Req → Req) (a : Aha) : Aha :=
  let g := fun r => if r.client = c then f r else r
  { a with holder := a.holder.map g, stack := a.stack.map g, waiting := a.waiting.map g }

/-- Leaves a report for its client (R63, log 7). -/
def State.report (s : State) (r : Report) : State := s.setReports (s.reports ++ [r])

/-- A motion's target is met (R64, R66, R73). -/
def targetMet (s : State) (r : Req) : Bool :=
  match r.target with
  | .switch sw => s.on sw
  | .slot n => s.rrc.index == n && s.on .indexLocked
  | .jog (some sw) => s.on sw
  | .jog none => r.moved

/-- How a motion whose target is met ends (R67, R73). -/
def Req.metEnd (r : Req) : MotionEnd :=
  match r.target with
  | .jog _ => .endSwitch
  | _ => .target

/-! ## Granting -/

/-- The carousel guard: ARM HOME and STOP CHAIN HEALTHY, both expected on (R72). -/
def guardSet : SwitchSet := switchMask .armHome ||| switchMask .stopChainHealthy

/-- The remaining ms that a motion takes up again: none for one not yet driven, whose wait for INDEX
LOCKED is no part of its own timeout (R66, R71; DESIGN CHOICE: log 43). -/
def Req.saved (r : Req) : Option Nat :=
  match r.lockWait with
  | some x => x
  | none => r.left

/-- Drives the index valve for a request, with its route from the index position now; the timeout is
recomputed for the loader and kept for the others (R71). The next step is its own, and the direction
goes to the carousel table (R53). -/
def driveIndex (r : Req) (s : State) : State :=
  let route :=
    match r.target with
    | .slot n => routeTo s.rrc.index n
    | _ => (r.dir.step, 1)
  let fresh := { r with dir := route.1.dir, route := some route, ownStep := true }
  let left := if r.client = .loader then fresh.timeout else r.saved.getD fresh.timeout
  (s.setAha
    { s.aha with
      holder := some { fresh with left := some left, lockWait := none }
      valve := some (.index, route.1.dir) }).setRrc { s.rrc with stepDir := route.1 }

/-- Drives a valve other than the index (R66). -/
def driveValve (r : Req) (s : State) : State :=
  s.setAha
    { s.aha with
      holder := some { r with left := some (r.left.getD r.timeout) }
      valve := some (r.fn, r.dir) }

/-- Starts the wait for INDEX LOCKED (R71); a motion suspended in its first wait keeps no remaining ms
(DESIGN CHOICE: log 43). -/
def awaitLock (r : Req) (s : State) : State :=
  s.setAha
    { s.aha with
      holder := some
        { r with
          left := some Config.indexBaseMs
          lockWait := some (if r.client = .loader then none else r.saved) } }

/-- Writes group 1 for an index motion; answers whether it mismatches (R72). -/
def armGuard (s : State) : State × Bool := writeGroup .g1 guardSet guardSet s

/-- The failure of an index motion by its guard, before or after its valve is driven (R72). -/
def guardFailed (r : Req) (s : State) : State :=
  (disarmGroup .g1 s).report (.failed r .guard s.sfe.g1.mism)

/-- The report of a grant that does not end at once: GRANTED at a first grant, RESUMED for a request
that has been granted before (R63, R66). -/
def Req.grantReport (r : Req) : Report := if r.left.isSome then .resumed r else .granted r

/-- Grants or resumes a request, no client holding (R66, R71, R72); answers whether it now holds, or
has ended at once, in which case its end is the one report. -/
def tryGrant (r : Req) (s : State) : State × Bool :=
  if targetMet s r then (s.report (.complete r r.metEnd), false)
  else if r.fn = .index then
    let (s, mism) := armGuard s
    if mism then (guardFailed r s, false)
    else if s.on .indexLocked then (driveIndex r (s.report r.grantReport), true)
    else (awaitLock r (s.report r.grantReport), true)
  else (driveValve r (s.report r.grantReport), true)

/-- The highest-ranked candidate among the stack's top and the waiting set, with the arbiter without
it (R68). -/
def Aha.nextCandidate (a : Aha) : Option (Req × Aha) :=
  match a.stack, a.waiting with
  | [], [] => none
  | t :: ts, [] => some (t, { a with stack := ts })
  | [], w :: ws => some (w, { a with waiting := ws })
  | t :: ts, w :: ws =>
    if t.client.rank < w.client.rank then some (t, { a with stack := ts })
    else some (w, { a with waiting := ws })

/-- The grant passes on until a client holds it or none stands (R68); `n` bounds how often. -/
def passOn : Nat → State → State
  | 0, s => s
  | n + 1, s =>
    match s.aha.nextCandidate with
    | none => s
    | some (r, a) =>
      let (s, held) := tryGrant r (s.setAha a)
      if held then s else passOn n s

/-- The four clients bound how often the grant can pass on within one release (R63). -/
def clientCount : Nat := 4

/-- The holder stops running: its valve is centred, and group 1 is disarmed for an index motion (R67,
R72). No client holds. -/
def stopHolder (s : State) : State :=
  match s.aha.holder with
  | none => s
  | some r =>
    let s := if r.fn = .index then disarmGroup .g1 s else s
    s.setAha { s.aha with holder := none, valve := none }

/-- The holder's motion ends with a report, and the grant passes on (R67 to R69). -/
def endHolder (rep : Report) (s : State) : State :=
  passOn clientCount ((stopHolder s).report rep)

/-- The waiting set with a request in its chain-order place (R63, R65). -/
def insertWaiting (r : Req) : List Req → List Req
  | [] => [r]
  | w :: ws => if r.client.rank < w.client.rank then r :: w :: ws else w :: insertWaiting r ws

/-- Grants a request, the grant passing on where it ends at once. -/
def grantNow (r : Req) (s : State) : State :=
  let (s, held) := tryGrant r s
  if held then s else passOn clientCount s

/-- A request as it is suspended: the next step counted stays its own only while the step that it
began still runs (R71, R73; log 29). -/
def Req.suspended (stepMark : Bool) (r : Req) : Req := { r with ownStep := r.ownStep && stepMark }

/-- The holder is suspended: it stops running, is pushed on the stack with its remaining timeout, and
is reported SUSPENDED (R65). -/
def suspendHolder (h : Req) (s : State) : State :=
  let h := h.suspended s.rrc.stepMark
  let s := stopHolder s
  (s.setAha { s.aha with stack := h :: s.aha.stack }).report (.suspended h)

/-- A request arrives; one from a client that has a request standing is turned back to it as refused
(R63 to R65). -/
def requestMotion (r : Req) (s : State) : State :=
  if s.aha.stands r.client then s.report (.refused r)
  else if targetMet s r then s.report (.complete r r.metEnd)
  else
    match s.aha.holder with
    | none => grantNow r s
    | some h =>
      if r.client.rank < h.client.rank then grantNow r (suspendHolder h s)
      else s.setAha { s.aha with waiting := insertWaiting r s.aha.waiting }

/-- A client withdraws its request, wherever it stands (R70). -/
def withdraw (c : Client) (s : State) : State :=
  if s.aha.holds c then passOn clientCount (stopHolder s)
  else
    s.setAha
      { s.aha with
        stack := s.aha.stack.filter (fun r => r.client != c)
        waiting := s.aha.waiting.filter (fun r => r.client != c) }

/-! ## How motions end -/

/-- A motion's target is this switch. -/
def Req.aimsAt (r : Req) (sw : Switch) : Bool :=
  r.target == .switch sw || r.target == .jog (some sw)

/-- A switch other than INDEX LOCKED is taken on: the running motion whose target it is completes
(R67). -/
def ahaSwitchOn (sw : Switch) (s : State) : State :=
  match s.aha.holder with
  | some r => if r.aimsAt sw then endHolder (.complete r r.metEnd) s else s
  | none => s

/-- A new index position is reported: an index jog has met its end where the step was its own (R73).
The steps of other motions, counted while it stands suspended, are no end of it, and it resumes with
its remaining jog time (R71). -/
def Req.noteMoved (r : Req) : Req := if r.ownStep then { r with moved := true } else r

/-- INDEX LOCKED has been taken on, and the step counted if one was in progress (R53): the running
index motion is tested, and one that waited for the lock is driven (R67, R71, R73). -/
def ahaLocked (counted : Bool) (s : State) : State :=
  let s :=
    if counted then s.setAha (s.aha.modReq .manual Req.noteMoved) else s
  match s.aha.holder with
  | none => s
  | some r =>
    if r.fn != .index then s
    else if r.lockWait.isSome then
      if targetMet s r then endHolder (.complete r r.metEnd) s
      else
        let (s, mism) := armGuard s
        if mism then endHolder (.failed r .guard s.sfe.g1.mism) s else driveIndex r s
    else if counted && targetMet s r then endHolder (.complete r r.metEnd) s
    else s

/-- Group 1 raises its mismatch event: a running index motion fails (R72). -/
def ahaGuard (mism : SwitchSet) (s : State) : State :=
  match s.aha.holder, s.aha.valve with
  | some r, some (.index, _) => endHolder (.failed r .guard mism) s
  | _, _ => s

/-- The holder's timeout has reached 0: a jog ends, another motion fails (R69, R73). -/
def ahaTimeout (s : State) : State :=
  match s.aha.holder with
  | none => s
  | some r =>
    if Timer.over r.left then
      match r.target, r.lockWait with
      | .jog _, none => endHolder (.complete r .jogEnd) s
      | _, _ => endHolder (.failed r .timeout 0) s
    else s

/-! ## The loader -/

/-- The loader may request (R58). -/
def loaderMay (s : State) : Bool := s.on .armHome && !s.rrc.hold

/-- The loader tests its condition: it requests, or withdraws (R58). A request that holds the grant and
waits for INDEX LOCKED stands as ARM HOME goes off, like one that runs (DESIGN CHOICE: log 42). -/
def loaderTest (s : State) : State :=
  match s.rrc.loader with
  | none => s
  | some o =>
    match o.phase with
    | .waiting =>
      if loaderMay s then
        let s := s.setRrc { s.rrc with loader := some { o with phase := .requested } }
        requestMotion (s.indexReq .loader o.slot) s
      else s
    | .requested =>
      if loaderMay s then s
      else if s.aha.stands .loader && (!s.aha.holds .loader || s.rrc.hold) then
        withdraw .loader (s.setRrc { s.rrc with loader := some { o with phase := .waiting } })
      else s

/-- The loader's motion is complete: the transfer is made and the operation ends (R59). -/
def loaderDone (s : State) : State :=
  match s.rrc.loader with
  | none => s
  | some o =>
    let r :=
      match o.kind with
      | .load => (s.rrc.moveRod o.rod (.slot o.slot)).putSlot o.slot (.loaded o.rod)
      | .unload => (s.rrc.moveRod o.rod .rack).putSlot o.slot .empty
    (s.setRrc { r with loader := none }).raise
      (.loadDone o.kind (s.rrc.serialOf o.rod) o.slot none)

/-- The loader's motion has failed: the reservation is freed and the operation ends (R59). -/
def loaderFailed (cause : FailCause) (s : State) : State :=
  match s.rrc.loader with
  | none => s
  | some o =>
    (s.setRrc { (s.rrc.freeSlot o.slot) with loader := none }).raise
      (.loadDone o.kind (s.rrc.serialOf o.rod) o.slot (some cause))

/-- The carousel hold is set or cleared, and the loader tests its condition (R58). -/
def setHold (b : Bool) (s : State) : State :=
  if s.rrc.hold = b then s else loaderTest (s.setRrc { s.rrc with hold := b })

/-! ## The ends of manual jogs -/

/-- OP DONE of a jog (R73). -/
def manualDone (r : Req) (res : JogResult) (s : State) : State :=
  s.raise (.jogDone r.fn r.dir res)

end Sys2Proof.Machine
end

