-- ==== Sys2Proof/Machine/Handling.lean ====
section
/-! DEFINITION. The handling sequencer (chapter 5): stages, their conditions and record changes,
operations held, faulted and ended, and trips. -/

namespace Sys2Proof.Machine

/-! ## Stages -/

/-- String-opening stages (R90). -/
def Stage.opening : Stage → Bool
  | .unscrew => true
  | .brk => true
  | .spin => true
  | _ => false

/-- The stage that follows one in an operation's table (R83, R85). -/
def Op.next (op : Op) (st : Stage) : Option Stage :=
  op.stages[(op.stages.findIdx (· == st)) + 1]?

/-- Group 0 selects CLAMP CLOSED too: after CLAMP and before UNCLAMP (R80). -/
def selectsClamp (op : Op) (st : Stage) : Bool :=
  op.stages.findIdx (· == .clamp) < op.stages.findIdx (· == st) && st != .unclamp

/-- MAST LOCKED and STOP CHAIN HEALTHY (R80). -/
def stageSet : SwitchSet := switchMask .mastLocked ||| switchMask .stopChainHealthy

/-- The switches that group 0 selects for a stage, all expected on (R80). -/
def guardOf (op : Op) (st : Stage) : SwitchSet :=
  if selectsClamp op st then stageSet ||| switchMask .clampClosed else stageSet

/-- The motion that a stage requests as HANDLING, or none for a wait or a driller stage (R83, R85,
R86). -/
def stageReq (o : OpRec) (s : State) : Option Req :=
  let r := fun fn dir sw => some (Req.new .handling fn dir (.switch sw))
  match o.stage with
  | .clamp => r .clamp .first .clampClosed
  | .index => some (s.indexReq .handling o.slot)
  | .present => r .arm .first .armAtCentre
  | .ret =>
    match o.op with
    | .addRod => r .arm .second .armHome
    | .removeRod => r .arm .first .armHome
  | .unclamp => r .clamp .second .clampOpen
  | .brk =>
    match o.wrench with
    | .grip => r .wrench .first .wrenchGripped
    | .release => r .wrench .second .wrenchOpen
  | .catchRod => r .arm .first .armAtCentre
  | .stow => r .arm .second .armAtCarousel
  | .quiet => none
  | .unscrew => none
  | .make => none
  | .lift => none
  | .spin => none
  | .free => none
  | .reconnect => none

/-- The QUIET condition (R81). -/
def quietMet (s : State) : Bool :=
  s.cm.quiet && s.cm.mon == .idle && s.cm.fcResult == .passed && s.cm.gainLatch.isNone

/-- The torque condition (R84). -/
def torqueMet (s : State) : Bool :=
  s.sfe.torque.isFaulted || (match s.sfe.torque.value with | some x => s.pMakeTorque ≤ x | none => false)

/-- A wait or driller stage's completion condition on the present values (R81, R83 to R86). LIFT waits
while the encoder is in FAULT, whatever height it last gave (R86). -/
def conditionMet (o : OpRec) (s : State) : Bool :=
  match o.stage with
  | .quiet => quietMet s
  | .unscrew => !s.on .headConnected
  | .free => !s.on .headConnected
  | .reconnect => s.on .headConnected
  | .make => s.on .headConnected && torqueMet s
  | .lift =>
    match s.sfe.enc, s.sfe.head, s.rrc.rod o.rod with
    | .good, some h, some rod => rod.length ≤ h
    | _, _, _ => false
  | .spin => s.pSpinTurns ≤ (s.sfe.rotCount + (2 ^ 32 - o.rotBase)) % 2 ^ 32
  | _ => false

/-- Tests the condition of the stage that the operation waits in; met, the stage is to complete
(R79, log 7). -/
def hsTest (s : State) : State :=
  match s.hs.op with
  | some o =>
    if s.hs.seq = .waiting && o.begun && conditionMet o s then s.report (.stageMet o.stage) else s
  | none => s

/-! ## Operations held and faulted -/

/-- The depth hold is set or released, and delivered to the builder (R88). -/
def setDepthHold (b : Bool) (s : State) : State :=
  if s.hs.depthHold = b then s else decideDepth (s.setHs { s.hs with depthHold := b })

/-- The operation goes HELD: the request is withdrawn, the stall timer cancelled, and OP HELD raised
(R91 to R94). -/
def holdOp (cause : HeldCause) (mism : Option SwitchSet) (s : State) : State :=
  match s.hs.op with
  | none => s
  | some o =>
    let s := s.setHs { s.hs with seq := .held, cause := some (.held cause mism), stall := none }
    (withdraw .handling s).raise (.opHeld o.op o.stage cause mism)

/-- The operation goes FAULTED (R93, R94). -/
def faultOp (fn : Func) (cause : FailCause) (s : State) : State :=
  match s.hs.op with
  | none => s
  | some o =>
    (s.setHs { s.hs with seq := .faulted, cause := some (.fault fn cause), stall := none }).raise
      (.opFault o.op o.stage fn cause)

/-- The sequencer is RUNNING or WAITING with an operation in flight. -/
def Hs.acts (h : Hs) : Bool := h.op.isSome && (h.seq == .running || h.seq == .waiting)

/-! ## Beginning a stage -/

/-- The stage's start by its kind, its group written and its begun mark set (R79). -/
def startStage (o : OpRec) (s : State) : State :=
  let s :=
    match o.stage with
    | .index => setHold true s
    | .unscrew => setDepthHold true s
    | .brk => setDepthHold true s
    | _ => s
  match stageReq o s with
  | some r => requestMotion r (s.setHs { s.hs with seq := .running, stall := none })
  | none =>
    let o :=
      { o with
        rotBase := if o.stage = .spin then s.sfe.rotCount else o.rotBase
        peak := if o.stage = .make then none else o.peak }
    let stall := if o.stage = .quiet then none else some Config.stallMs
    hsTest (s.setHs { s.hs with op := some o, seq := .waiting, stall := stall })

/-- Begins a stage (R79, R90): in a gain wait it is chosen and not begun. -/
def beginStage (stage : Stage) (s : State) : State :=
  match s.hs.op with
  | none => s
  | some o =>
    let o := { o with stage := stage, begun := false, wrench := .grip }
    if stage.opening && s.cm.gainLatch.isSome then
      s.setHs { s.hs with op := some o, seq := .waiting, stall := none }
    else
      let o := { o with begun := true }
      let s := s.setHs { s.hs with op := some o, seq := .waiting, stall := none }
      let g := guardOf o.op stage
      let (s, mism) := writeGroup .g0 g g s
      if mism then holdOp .guard (some s.sfe.g0.mism) s else startStage o s

/-! ## Operations and trips -/

/-- The sequencer clears the mismatch flags of groups 0 and 1: when it starts an operation, and when
RESUME is taken (R14). -/
def clearStopFlags (s : State) : State := clearGroupFlag .g1 (clearGroupFlag .g0 s)

/-- Starts an operation on its reserved slot (R78). -/
def startOp (op : Op) (slot rod : Nat) (trip : Bool) (s : State) : State :=
  let o : OpRec := ⟨op, rod, slot, .quiet, false, trip, .grip, 0, none⟩
  let s := s.setHs { s.hs with op := some o, cause := none, seq := .waiting, stall := none }
  beginStage .quiet (clearStopFlags s)

/-- A trip ends with its reason (R100). -/
def endTrip (reason : TripEnd) (s : State) : State :=
  match s.hs.trip with
  | none => s
  | some t =>
    (s.setHs { s.hs with trip := some { t with ended := some (reason, s.now) }, seq := .idle }).raise
      (.tripEnded t.dir t.count t.done reason)

/-- The operation of a trip's direction (R97). -/
def TripDir.op : TripDir → Op
  | .out => .removeRod | .inward => .addRod

/-- The end reason of a failed slot choice (R98). -/
def TripDir.noChoice : TripDir → TripEnd
  | .out => .carouselFull | .inward => .noRod

/-- The trip goes on from step 2 of R98. -/
def tripNext (s : State) : State :=
  match s.hs.trip with
  | none => s
  | some t =>
    if t.stop then endTrip .stopped s
    else if s.cm.gainLatch.isSome then s.setHs { s.hs with seq := .waiting }
    else
      match s.rrc.choose t.dir.op none with
      | .error _ => endTrip t.dir.noChoice s
      | .ok (slot, rod) =>
        startOp t.dir.op slot rod true (s.setRrc (s.rrc.reserveFor t.dir.op slot rod))

/-- An operation of a trip has ended DONE: the trip goes on by itself (R98). -/
def tripContinue (s : State) : State :=
  match s.hs.trip with
  | none => s
  | some t =>
    let t := { t with done := t.done + 1 }
    let s := s.setHs { s.hs with trip := some t }
    if t.done = t.count then endTrip .count s else tripNext s

/-- The last stage has completed: the operation ends DONE (R89). -/
def endOp (s : State) : State :=
  match s.hs.op with
  | none => s
  | some o =>
    let s := (disarmGroup .g0 s).raise
      (.opDone o.op (s.rrc.serialOf o.rod) o.slot s.rrc.string.length)
    let s := s.setHs { s.hs with op := none, cause := none, stall := none, seq := .idle }
    if o.trip then tripContinue s else s

/-! ## Completing a stage -/

/-- The record changes of a stage's completion other than CLAMP's (R83, R85, R47, R48, R52, R88). -/
def stageChanges (o : OpRec) (s : State) : State :=
  match o.stage with
  | .present => s.setRrc { (s.rrc.moveRod o.rod .arm) with arm := some o.rod }
  | .make =>
    let s := countConnection o.rod (s.setRrc (s.rrc.push o.rod o.peak))
    setDepthHold false (deliverLength (dibTorque o.peak s))
  | .brk => countConnection o.rod s
  | .free => setDepthHold false (deliverLength (s.setRrc s.rrc.pop))
  | .stow =>
    s.setRrc { ((s.rrc.moveRod o.rod (.slot o.slot)).putSlot o.slot (.loaded o.rod)) with arm := none }
  | .ret =>
    match o.op with
    | .addRod => setHold false (s.setRrc (s.rrc.putSlot o.slot .empty))
    | .removeRod => setHold false s
  | _ => s

/-- The stage completes: its record changes are made, and the next stage begins or the operation ends
(R79, R80, R89). -/
def completeStage (s : State) : State :=
  match s.hs.op with
  | none => s
  | some o =>
    let s := stageChanges o (s.setHs { s.hs with stall := none })
    match o.op.next o.stage with
    | none => endOp s
    | some stage =>
      if o.stage = .clamp then
        let g := guardOf o.op stage
        let (s, mism) := writeGroup .g0 g g s
        if mism then
          holdOp .guard (some s.sfe.g0.mism)
            (s.setHs { s.hs with op := some { o with stage := stage, begun := false } })
        else beginStage stage s
      else beginStage stage s

/-- The condition of the stage that was waited in has been found met. -/
def hsStageMet (stage : Stage) (s : State) : State :=
  match s.hs.op with
  | some o => if s.hs.seq = .waiting && o.begun && o.stage == stage then completeStage s else s
  | none => s

/-- The arbiter reports the HANDLING motion complete (R79, R86). -/
def hsMotionDone (s : State) : State :=
  match s.hs.op with
  | none => s
  | some o =>
    if s.hs.seq != .running then s
    else if o.stage = .brk && o.wrench = .grip then
      let o := { o with wrench := .release }
      let s := s.setHs { s.hs with op := some o }
      match stageReq o s with
      | some r => requestMotion r s
      | none => s
    else completeStage s

/-- The arbiter reports the HANDLING motion failed (R93). -/
def hsMotionFailed (r : Req) (cause : FailCause) (mism : SwitchSet) (s : State) : State :=
  if s.hs.seq != .running then s
  else
    match cause with
    | .guard => holdOp .carousel (some mism) s
    | .timeout => faultOp r.fn .timeout s

/-! ## What other blocks deliver -/

/-- Group 0 raises its mismatch event (R92). -/
def hsGuard (mism : SwitchSet) (s : State) : State :=
  if s.hs.acts then holdOp .guard (some mism) s else s

/-- A pump has left STOPPED (R91). -/
def hsPump (s : State) : State :=
  match s.hs.op with
  | none => s
  | some o =>
    if s.hs.acts && o.stage != .quiet && !(o.stage == .unclamp && o.begun) then holdOp .pump none s
    else s

/-- The monitor delivers another change: QUIET is tested again (R81). -/
def hsMonitor (s : State) : State :=
  match s.hs.op with
  | some o => if o.stage = .quiet then hsTest s else s
  | none => s

/-- The monitor delivers the clearing of the GAIN latch (R90, R98). -/
def hsGainCleared (s : State) : State :=
  if s.hs.seq != .waiting then s
  else
    match s.hs.op with
    | some o => if o.begun then hsMonitor s else beginStage o.stage s
    | none => if s.hs.tripActive then tripNext s else s

/-- A taken change of HEAD CONNECTED (R83 to R85). -/
def hsHeadConnected (s : State) : State :=
  match s.hs.op with
  | some o =>
    match o.stage with
    | .unscrew => hsTest s
    | .free => hsTest s
    | .reconnect => hsTest s
    | .make => hsTest s
    | _ => s
  | none => s

/-- A HEAD TORQUE delivery (R84). -/
def hsTorque (s : State) : State :=
  match s.hs.op with
  | none => s
  | some o =>
    if s.hs.seq = .waiting && o.begun && o.stage == .make then
      match s.sfe.torque.isFaulted, s.sfe.torque.value, s.on .headConnected with
      | false, some x, true =>
        hsTest (s.setHs { s.hs with op := some { o with peak := some (max x (o.peak.getD 0)) } })
      | _, _, _ => hsTest s
    else s

/-- A ROTATION pulse delivered (R86). -/
def hsRotation (s : State) : State :=
  match s.hs.op with
  | some o => if o.stage = .spin then hsTest s else s
  | none => s

/-- A head height delivered (R86). -/
def hsHead (s : State) : State :=
  match s.hs.op with
  | some o => if o.stage = .lift then hsTest s else s
  | none => s

/-! ## The messages' acts -/

/-- Frees the operation's reservation, if it still stands (R52, R96). -/
def freeReservation (o : OpRec) (s : State) : State :=
  match s.rrc.slotAt o.slot with
  | .reserved .handling _ _ => s.setRrc (s.rrc.freeSlot o.slot)
  | _ => s

/-- ABORT with an operation in flight (R96). -/
def abortOp (o : OpRec) (s : State) : State :=
  let faulted := s.hs.seq == .faulted
  let s := freeReservation o (withdraw .handling s)
  let s := disarmGroup .g0 (setHold false s)
  let s := s.setHs { s.hs with op := none, cause := none, stall := none, seq := .idle }
  let s := if s.rrc.arm.isNone then setDepthHold false s else s
  let s := s.raise (.opAborted o.op o.stage (s.rrc.serialOf o.rod) s.rrc.arm)
  if o.trip then endTrip (if faulted then .fault else .aborted) s else s

/-- The checks of RESUME for an operation (R95). -/
def resumeAllowed (o : OpRec) (s : State) : Bool :=
  s.on .mastLocked && s.on .stopChainHealthy
    && (!selectsClamp o.op o.stage || s.on .clampClosed)
    && (s.cm.quiet || o.stage == .quiet || o.stage == .unclamp)
    && (o.stage != .index || s.on .armHome)

/-- RESUME restarts the current stage of an operation (R95). -/
def resumeOp (o : OpRec) (s : State) : State :=
  let s := clearStopFlags s
  beginStage o.stage (s.setHs { s.hs with cause := none })

end Sys2Proof.Machine
end

