-- ==== Sys2Proof/Machine/Circulation.lean ====
section
/-! DEFINITION. The circulation monitor (chapter 2): pumps, the balance window, the latches, the flow
check, the idle flow watch, hole watch and auto-divert. -/

namespace Sys2Proof.Machine

/-! ## Auto-divert (R41) -/

/-- The WELL CONTROL request for a diverter motion (R64, R74). -/
def divertReq (d : Dir) (byMessage byDivert : Bool) : Req :=
  { (Req.new .wellControl .diverter d
      (.switch (match d with | .first => .diverterOpen | .second => .diverterClosed))) with
    byMessage := byMessage, byDivert := byDivert }

/-- The standing WELL CONTROL request. -/
def Aha.wellReq (a : Aha) : Option Req := a.standing.find? (fun r => r.client == .wellControl)

def setDivert (d : Divert) (s : State) : State := s.setCm { s.cm with divert := d }

/-- The GAIN latch has gone from clear to set (R41). -/
def autoDivert (s : State) : State :=
  if s.pAutoDivert then
    let s := setDivert .requested s
    match s.aha.wellReq with
    | none => requestMotion (divertReq .second false true) s
    | some r =>
      match r.dir with
      | .second => s.setAha (s.aha.modReq .wellControl (fun x => { x with byDivert := true }))
      | .first =>
        let s := withdraw .wellControl s
        let s := if r.byMessage then s.raise (.diverterDone r.dir .withdrawn) else s
        requestMotion (divertReq .second false true) s
  else
    match s.aha.wellReq with
    | some r => if r.byDivert then s else setDivert .noDivert s
    | none => setDivert .noDivert s

/-- The WELL CONTROL motion is complete (R41, R74). -/
def wellDone (r : Req) (s : State) : State :=
  let s := if r.byMessage then s.raise (.diverterDone r.dir .done) else s
  if r.byDivert then setDivert .closed s else s

/-- The WELL CONTROL motion has failed (R41, R74). -/
def wellFailed (r : Req) (s : State) : State :=
  let s := if r.byMessage then s.raise (.diverterDone r.dir .timeout) else s
  if r.byDivert then
    let s := setDivert .failed s
    match s.cm.gainLatch with
    | some l => s.raise (.gain l.src l.figure (some .failed))
    | none => s
  else s

/-! ## The latches (R25) -/

/-- A latch is set, if it is clear (R25). -/
def setLatch (l : LatchName) (src : LatchSrc) (figure : Int) (s : State) : State :=
  match l with
  | .loss =>
    if s.cm.lossLatch.isSome then s
    else
      hsMonitor ((s.setCm
        { s.cm with lossLatch := some ⟨src, s.now, figure⟩, lossClr := 0 }).raise (.loss src figure))
  | .gain =>
    if s.cm.gainLatch.isSome then s
    else
      hsMonitor (autoDivert ((s.setCm
        { s.cm with gainLatch := some ⟨src, s.now, figure⟩, gainClr := 0 }).raise
          (.gain src figure none)))

/-- A latch that is set is cleared (R25). -/
def clearLatch (l : LatchName) (cause : ClearCause) (s : State) : State :=
  match l with
  | .loss =>
    if s.cm.lossLatch.isSome then
      hsMonitor ((s.setCm { s.cm with lossLatch := none, lossSus := 0, lossClr := 0 }).raise
        (.latchCleared .loss cause))
    else s
  | .gain =>
    if s.cm.gainLatch.isSome then
      hsGainCleared ((s.setCm { s.cm with gainLatch := none, gainSus := 0, gainClr := 0 }).raise
        (.latchCleared .gain cause))
    else s

/-! ## The monitor states (2.3) -/

/-- IDLE is entered, the idle flow span empty (R33). The second's return volume is counted from the
entry on (DESIGN CHOICE: log 39). -/
def enterIdle (s : State) : State :=
  hsMonitor (s.setCm { s.cm with mon := .idle, span := [], secPulses := 0 })

/-- The settle count at a bit depth in mm (R29). -/
def settleCount (depth : Nat) : Nat := min 14 (2 + depth / 1000 / 50)

/-- SETTLING is entered (R29); the span is discarded (R33). -/
def enterSettling (s : State) : State :=
  hsMonitor (s.setCm
    { s.cm with mon := .settling, settle := settleCount s.dib.depth, span := [], secPulses := 0 })

/-- FLOW CHECK is entered (R31); outside WATCHING the balance condition is NORMAL (R26). -/
def enterFlowCheck (s : State) : State :=
  hsMonitor (s.setCm
    { s.cm with mon := .flowCheck, cond := .normal, fcTimer := some (s.pFlowPeriod * 1000), fcVol := 0 })

/-- The flow-check record takes a result (R32). -/
def recordCheck (r : FlowResult) (s : State) : State :=
  (s.setCm
    { s.cm with fcResult := r, fcSecond := some s.now, fcVolume := some s.cm.fcVol, fcTimer := none }).raise
    (.flowCheck r s.now s.cm.fcVol)

/-- A flow check FAILS: the GAIN latch is set and the monitor enters IDLE (R32). -/
def failCheck (s : State) : State :=
  let s := recordCheck .failed s
  let s := s.setCm { s.cm with mon := .idle, span := [], secPulses := 0 }
  hsMonitor (setLatch .gain .flowCheck s.cm.fcVol s)

/-- A hole-watch entry aborts (R37). -/
def abortEntry (cause : AbortCause) (s : State) : State :=
  let s := s.setCm { s.cm with capTimer := none, capSum := 0, capCount := 0, entryVol := 0 }
  enterIdle ((disarmGroup .g2 s).raise (.entryAborted cause))

/-- The reference and its drift steps are discarded (R40). -/
def dropReference (s : State) : State :=
  s.setCm { s.cm with ref := none, hiStep := 0, loStep := 0 }

/-- A pump has left STOPPED, at the monitor (R29, R32, R37, R40). -/
def monitorPumpLeft (s : State) : State :=
  match s.cm.mon with
  | .idle => enterSettling s
  | .flowCheck => enterSettling (recordCheck .notCompleted s)
  | .holeWatch => enterSettling (dropReference (disarmGroup .g2 s))
  | .settling => s
  | .watching => s
  | .watchEntry => s

/-! ## Pumps (2.1) -/

def Cm.pump (c : Cm) : Pump → PumpRec
  | .one => c.pump1 | .two => c.pump2

def Cm.setPump (c : Cm) (p : Pump) (r : PumpRec) : Cm :=
  match p with
  | .one => { c with pump1 := r }
  | .two => { c with pump2 := r }

/-- A pump's rate in strokes per minute (R18). -/
def PumpRec.rate (r : PumpRec) : Nat :=
  match r.interval with
  | some i => 60000 / i
  | none => 0

/-- A stroke counted into a window's count and overflow mark (R21). -/
def countStroke (n : Nat) (past : Bool) : Nat × Bool :=
  if n < Config.windowStrokeTop then (n + 1, past) else (n, true)

/-- A stroke counted into the window in progress (R21). -/
def Window.stroke (p : Pump) (w : Window) : Window :=
  match p with
  | .one =>
    let x := countStroke w.strokes1 w.over1
    { w with strokes1 := x.1, over1 := x.2 }
  | .two =>
    let x := countStroke w.strokes2 w.over2
    { w with strokes2 := x.1, over2 := x.2 }

/-- The interval between two stamps of the millisecond count; 0 is taken as 1 (R18). -/
def strokeInterval (stamp last : Nat) : Nat := max 1 ((stamp + (2 ^ 32 - last)) % 2 ^ 32)

/-- A pump record takes a stroke (R18). -/
def PumpRec.stroke (stamp : Nat) (r : PumpRec) : PumpRec :=
  match r.st with
  | .stopped => { r with st := .starting, last := some stamp, gap := some Config.gapTopMs }
  | _ =>
    let i := strokeInterval stamp (r.last.getD stamp)
    { r with
      st := .running
      last := some stamp
      interval := some i
      gap := some (max Config.gapLowMs (min Config.gapTopMs (3 * i))) }

/-- A stroke pulse at the monitor (R18, R21, R37). -/
def cmStroke (p : Pump) (s : State) : State :=
  let before := s.cm.pump p
  let after := before.stroke s.sfe.ms
  let c := s.cm.setPump p after
  let s := s.setCm { c with win := c.win.map (Window.stroke p) }
  let s := if after.st = before.st then s else s.raise (.pumpChange p after.st after.rate)
  let s := if s.cm.mon = .watchEntry then abortEntry .stroke s else s
  if before.st = .stopped then hsPump (hsMonitor (monitorPumpLeft s))
  else if after.st = before.st then s
  else hsMonitor s

/-- A pump's gap timer has expired (R19, R31). -/
def cmPumpStopped (p : Pump) (s : State) : State :=
  let b := s.cm.pump p
  let r : PumpRec := { b with st := .stopped, interval := none, gap := none, remainder := 0 }
  let s := (s.setCm (s.cm.setPump p r)).raise (.pumpChange p .stopped 0)
  if s.cm.quiet && (s.cm.mon == .settling || s.cm.mon == .watching) then enterFlowCheck s
  else hsMonitor s

/-! ## Return pulses -/

/-- A return meter pulse at the monitor (R21, R31 to R33, R36, R37). -/
def cmReturn (s : State) : State :=
  let k := s.inForce.k
  let c := { s.cm with win := s.cm.win.map (fun w : Window => { w with returns := w.returns + 1 }) }
  match c.mon with
  | .flowCheck =>
    let v := c.fcVol + k
    let s := s.setCm { c with fcVol := v }
    if s.pFlowAllowance < v then failCheck s else s
  | .watchEntry =>
    let v := c.entryVol + k
    let s := s.setCm { c with entryVol := v }
    if s.pFlowAllowance < v then abortEntry .returnFlow s else s
  | .idle => s.setCm { c with secPulses := c.secPulses + 1 }
  | .holeWatch => s.setCm { c with secPulses := c.secPulses + 1 }
  | .settling => s.setCm c
  | .watching => s.setCm c

/-! ## The balance window (2.2) -/

/-- A window that opens now (R21). -/
def openWindow (s : State) : Window :=
  ⟨s.force, s.force.w, 0, false, 0, false, 0, 0⟩

/-- The ring, S and the counts emptied (R24, R30). -/
def Cm.emptied (c : Cm) : Cm :=
  { c with
    ring := [], sum := 0, lossSus := 0, gainSus := 0, lossClr := 0, gainClr := 0, disagree := 0
    cond := .normal }

/-- A pump's volume in a window, and its new remainder (R22). -/
def pumpIn (strokes disp eff rem : Nat) : Nat × Nat :=
  let raw := strokes * disp * eff + rem
  (raw / 1000, raw % 1000)

/-- The delta of a window, clamped, with its mark (R22). -/
def clampDelta (d : Int) : Int × ClampMark :=
  if d < -Config.deltaTop then (-Config.deltaTop, .bottom)
  else if Config.deltaTop < d then (Config.deltaTop, .top)
  else (d, .unclamped)

/-- The pit volume at a close: absent while PIT LEVEL is faulted (R22). -/
def pitVolume (pit : Analogue) (area : Nat) : Option Nat :=
  if pit.isFaulted then none else pit.value.map (fun v => v * area / 10)

/-- The record of a window that closes (R22). -/
def closeRecord (w : Window) (c : Cm) (pit : Analogue) : WinRec :=
  let in1 := (pumpIn w.strokes1 w.force.disp1 w.force.eff1 c.pump1.remainder).1
  let in2 := (pumpIn w.strokes2 w.force.disp2 w.force.eff2 c.pump2.remainder).1
  let ret := w.returns * w.force.k
  let d := clampDelta ((ret : Int) - ((in1 + in2 : Nat) : Int))
  { strokes1 := w.strokes1, over1 := w.over1, strokes2 := w.strokes2, over2 := w.over2
    in1 := in1, in2 := in2, ret := ret, d := d.1, clamp := d.2, declared := w.declared
    pit := pitVolume pit w.force.area, mon := c.mon }

/-- The remainders, the cumulative pumped volume and the last window record after a close (R22). A pump
that became STOPPED in the window begins from the remainder 0 of R19, and what its strokes leave is
kept (DESIGN CHOICE: log 36). -/
def Cm.closed (w : Window) (r : WinRec) (c : Cm) : Cm :=
  { c with
    pump1 := { c.pump1 with
      remainder := (pumpIn w.strokes1 w.force.disp1 w.force.eff1 c.pump1.remainder).2 }
    pump2 := { c.pump2 with
      remainder := (pumpIn w.strokes2 w.force.disp2 w.force.eff2 c.pump2.remainder).2 }
    cum := min Config.cumTop (c.cum + (r.in1 + r.in2))
    lastWin := some r }

/-- The ring with the window's entry, and S (R24). -/
def Cm.append (n : Nat) (r : WinRec) (c : Cm) : Cm :=
  let ring := c.ring.drop (c.ring.length + 1 - n) ++ [⟨r.d, r.clamp, r.pit, r.declared⟩]
  { c with ring := ring, sum := (ring.map RingEntry.d).sum }

/-- The suspect counts and the balance condition (R26). -/
def Cm.suspect (f : Force) (c : Cm) : Cm :=
  if c.sum ≤ -(f.lossThr : Int) then
    { c with lossSus := min Config.countTop (c.lossSus + 1), gainSus := 0, cond := .lossSuspect }
  else if (f.gainThr : Int) ≤ c.sum then
    { c with lossSus := 0, gainSus := min Config.countTop (c.gainSus + 1), cond := .gainSuspect }
  else { c with lossSus := 0, gainSus := 0, cond := .normal }

/-- R26: the test of S and the setting of the latches. -/
def testBalance (f : Force) (s : State) : State :=
  let s := s.setCm (s.cm.suspect f)
  let s := if f.m ≤ s.cm.lossSus then setLatch .loss .balance s.cm.sum s else s
  if f.m ≤ s.cm.gainSus then setLatch .gain .balance s.cm.sum s else s

/-- A clear count after a window (R27). -/
def clearCount (sum : Int) (thr n : Nat) : Nat :=
  if sum.natAbs ≤ thr / 2 then min Config.countTop (n + 1) else 0

/-- R27: the latches that are set are tested for clearing. -/
def testClearing (f : Force) (s : State) : State :=
  let s :=
    if s.cm.lossLatch.isSome then
      let s := s.setCm { s.cm with lossClr := clearCount s.cm.sum f.lossThr s.cm.lossClr }
      if f.m ≤ s.cm.lossClr then clearLatch .loss .automatic s else s
    else s
  if s.cm.gainLatch.isSome then
    let s := s.setCm { s.cm with gainClr := clearCount s.cm.sum f.gainThr s.cm.gainClr }
    if f.m ≤ s.cm.gainClr then clearLatch .gain .automatic s else s
  else s

/-- The pit change P and the balance D over the ring, when the check is made (R28). -/
def pitCheck (ring : List RingEntry) (sum : Int) : Option (Int × Int) :=
  match ring with
  | base :: second :: rest =>
    if (base :: second :: rest).all (fun e => e.pit.isSome) then
      let newest := ((second :: rest).getLast?.bind RingEntry.pit).getD 0
      let p := (newest : Int) - ((base.pit.getD 0 : Nat) : Int)
        - ((second :: rest).map RingEntry.declared).sum
      some (p, sum - base.d)
    else none
  | _ => none

/-- R28: the pit cross-check. A disagreeing window that brings the count to the CONFIRM COUNT of its
own window raises the notice, once more where that has been raised since (DESIGN CHOICE: log 35). -/
def crossCheck (f : Force) (s : State) : State :=
  match pitCheck s.cm.ring s.cm.sum with
  | none => s.setCm { s.cm with disagree := 0 }
  | some (p, d) =>
    if (f.tol : Int) < (p - d).natAbs then
      let n := min Config.countTop (s.cm.disagree + 1)
      let rises := s.cm.disagree < n && n == f.m
      let s := s.setCm { s.cm with disagree := n }
      if rises then s.raise (.pitDisagree p d (p - d)) else s
    else s.setCm { s.cm with disagree := 0 }

/-- The state-dependent steps of a close (R22, R30). -/
def stateSteps (f : Force) (r : WinRec) (s : State) : State :=
  match s.cm.mon with
  | .watching =>
    crossCheck f (testClearing f (testBalance f (s.setCm (s.cm.append f.n r))))
  | .settling =>
    let s := s.setCm { s.cm with settle := s.cm.settle - 1 }
    if s.cm.settle = 0 then hsMonitor (s.setCm { s.cm.emptied with mon := .watching }) else s
  | _ => s

/-- The loss and gain amounts of a window, from the latches as they stand (R22). -/
def Cm.lossAmount (c : Cm) (d : Int) : Nat :=
  if c.lossLatch.isSome && d < 0 then d.natAbs else 0

def Cm.gainAmount (c : Cm) (d : Int) : Nat :=
  if c.gainLatch.isSome && 0 < d then d.natAbs else 0

/-- The next window opens; a new ring length empties the ring (R21, R24). -/
def nextWindow (n : Nat) (s : State) : State :=
  let c := if s.force.n = n then s.cm else s.cm.emptied
  s.setCm { c with win := some (openWindow s) }

/-- The window in progress closes (R21, R22). -/
def closeWindow (s : State) : State :=
  match s.cm.win with
  | none => s
  | some w =>
    let r := closeRecord w s.cm s.sfe.pit
    let s := stateSteps w.force r (s.setCm (s.cm.closed w r))
    let s := dibWindow s.cm.cum (s.cm.lossAmount r.d) (s.cm.gainAmount r.d) s
    nextWindow w.force.n s

/-- A tick at the window timer: the first window opens, or a second of the window in progress passes
(R21). -/
def windowTick (s : State) : State :=
  match s.cm.win with
  | none => s.setCm { s.cm with win := some (openWindow s) }
  | some w => s.setCm { s.cm with win := some { w with left := w.left - 1 } }

/-! ## Second ticks -/

/-- The idle flow watch of a second (R33). -/
def idleFlow (s : State) : State :=
  if s.cm.mon = .idle || s.cm.mon = .holeWatch then
    let span := ((s.cm.secPulses * s.inForce.k) :: s.cm.span).take s.pFlowPeriod
    let s := s.setCm { s.cm with span := span, secPulses := 0 }
    if s.pFlowAllowance < span.sum then setLatch .gain .idleFlow span.sum s else s
  else s

/-- The drift step of a level difference at a band (R38). -/
def driftStep (diff band : Int) : Int :=
  if band < diff then (diff - 1) / band
  else if diff < -band then -((-diff - 1) / band)
  else 0

/-- The drift check on a mean level (R38). -/
def driftCheck (level : Nat) (ref : Int) (s : State) : State :=
  let st := driftStep ((level : Int) - ref) s.pDriftBand
  if s.cm.hiStep < st then
    setLatch .gain .drift level
      ((s.setCm { s.cm with hiStep := st }).raise (.driftStep true level ref st))
  else if st < s.cm.loStep then
    setLatch .loss .drift level
      ((s.setCm { s.cm with loStep := st }).raise (.driftStep false level ref st))
  else s

/-- The drift check of a second, and the samples counted afresh after it (R38). -/
def driftTick (s : State) : State :=
  let sum := s.cm.pitSum
  let count := s.cm.pitCount
  let bad := s.cm.pitBad
  let s := s.setCm { s.cm with pitSum := 0, pitCount := 0, pitBad := false }
  match s.cm.mon, s.cm.ref with
  | .holeWatch, some ref => if count = 0 || bad then s else driftCheck (sum / count) ref s
  | _, _ => s

/-! ## Deliveries and timers -/

/-- A PIT LEVEL delivery (R36 to R38). -/
def cmPit (s : State) : State :=
  match s.sfe.pit.isFaulted, s.sfe.pit.value with
  | false, some v =>
    let c := { s.cm with pitSum := s.cm.pitSum + v, pitCount := s.cm.pitCount + 1 }
    s.setCm
      (if c.mon = .watchEntry then { c with capSum := c.capSum + v, capCount := c.capCount + 1 } else c)
  | _, _ =>
    let s := s.setCm { s.cm with pitBad := true }
    if s.cm.mon = .watchEntry then abortEntry .pitFault s else s

/-- The reference of a capture; with no sample the spec states no quotient (log 6). -/
def captureRef (sum count : Nat) : Int :=
  if count = 0 then Config.emptyCapture else ((sum / count : Nat) : Int)

/-- The capture timer expires: HOLE WATCH is entered (R36). -/
def endCapture (s : State) : State :=
  hsMonitor (s.setCm
    { s.cm with
      mon := .holeWatch, capTimer := none, capSum := 0, capCount := 0, entryVol := 0
      ref := some (captureRef s.cm.capSum s.cm.capCount), hiStep := 0, loStep := 0
      span := [], secPulses := 0 })

/-- Group 2 raises its mismatch event (R37, R39). -/
def cmGuard (mism : SwitchSet) (s : State) : State :=
  match s.cm.mon with
  | .watchEntry => abortEntry .switch s
  | .holeWatch => s.raise (.driftSwitch mism)
  | _ => s

/-- The switches of group 2 (R35). -/
def watchSet : SwitchSet := switchMask .pitHigh ||| switchMask .pitLow ||| switchMask .returnPaddle

/-- ENTER HOLE WATCH is taken (R35). -/
def enterWatch (s : State) : State :=
  let s := s.setCm
    { s.cm with
      mon := .watchEntry, span := [], secPulses := 0, capSum := 0, capCount := 0, entryVol := 0
      capTimer := some Config.captureMs }
  let (s, mism) := writeGroup .g2 watchSet 0 (clearGroupFlag .g2 s)
  if mism then abortEntry .switch s else hsMonitor s

/-- LEAVE HOLE WATCH is taken (R40). -/
def leaveWatch (s : State) : State :=
  let s := s.setCm { s.cm with capTimer := none, capSum := 0, capCount := 0, entryVol := 0 }
  enterIdle (dropReference (disarmGroup .g2 s))

/-- The declared additions of a window after one more, held within their bound (R23). -/
def addDeclared (x v : Int) : Int := max (-Config.declaredTop) (min Config.declaredTop (x + v))

/-- DECLARE ADDITION is taken (R23, R39). -/
def declareVolume (v : Int) (s : State) : State :=
  let c := { s.cm with win := s.cm.win.map (fun w : Window => { w with declared := addDeclared w.declared v }) }
  s.setCm
    (if c.mon = .holeWatch then
      { c with ref := c.ref.map (fun r => r + (v * 10).tdiv s.inForce.area) }
    else c)

end Sys2Proof.Machine
end

