-- ==== Sys2Proof/Machine/Settle.lean ====
section
/-! DEFINITION. The end of a step: what the blocks have handed one another is taken, first in first
out (log 7). -/

namespace Sys2Proof.Machine

/-- The result of a jog that completes (R73). -/
def MotionEnd.jogResult : MotionEnd → JogResult
  | .jogEnd => .jogEnd
  | .target => .endSwitch
  | .endSwitch => .endSwitch

/-- The result of a jog that fails (R73; log 13). -/
def FailCause.jogResult : FailCause → JogResult
  | .guard => .guard
  | .timeout => .timeout

/-- The client takes a report (R41, R59, R63, R73, R74, R79, R93). No chapter has a client act on
GRANTED, SUSPENDED, RESUMED or a refused second request: the loader's new route at a resumption is
taken by the arbiter as it drives (R58, R71). -/
def takeReport (r : Report) (s : State) : State :=
  match r with
  | .granted _ => s
  | .suspended _ => s
  | .resumed _ => s
  | .refused _ => s
  | .stageMet stage => hsStageMet stage s
  | .complete q how =>
    match q.client with
    | .wellControl => wellDone q s
    | .handling => hsMotionDone s
    | .loader => loaderDone s
    | .manual => manualDone q how.jogResult s
  | .failed q cause mism =>
    match q.client with
    | .wellControl => wellFailed q s
    | .handling => hsMotionFailed q cause mism s
    | .loader => loaderFailed cause s
    | .manual => manualDone q cause.jogResult s

/-- Takes reports until none is left; `n` bounds how many. -/
def settleWith : Nat → State → State
  | 0, s => s
  | n + 1, s =>
    match s.reports with
    | [] => s
    | r :: rest => settleWith n (takeReport r (s.setReports rest))

/-- All that a step's event has handed on is taken (log 7). -/
def settle (s : State) : State := settleWith Config.settleFuel s

end Sys2Proof.Machine
end

