-- ==== Sys2Proof/Machine/Power.lean ====
section
/-! DEFINITION. Power (chapter 11): the warning, the power-up, the two kinds of start, the end of
start-up with its gap and RECOVERY record; and the store's reports to the other blocks (R131, R142,
R143). -/

namespace Sys2Proof.Machine

/-! ## The RECOVERY record -/

/-- The body of a RECOVERY record (R197, R204). A loss second that bit 0 of the flags marks absent is 0,
and a loss category that is absent is FFH, as a gap category is (DESIGN CHOICE: log 48). -/
def Recovery.body (r : Recovery) : List Byte :=
  mark r.lossSec.isSome ++ be 4 (r.lossSec.getD 0) ++ be 4 r.startEnd ++ be 4 r.gap
    ++ optCatBytes r.gapCat ++ optCatBytes r.lossCat ++ be 1 r.jobSt.code ++ be 1 r.seq.code
    ++ opStageBytes r.op ++ be 1 r.count

/-- The TPS at a freed-place report: it hands over the record it holds (R197). -/
def tpsFreed (s : State) : State :=
  match s.tps.heldRecovery with
  | none => s
  | some r =>
    let (s, n) := handOver .recovery r.job r.body false none s
    match n with
    | none => s
    | some _ => s.setTps { s.tps with heldRecovery := none }

/-- The freed-place report, to the three blocks in this order (R131; log 8). -/
def freedPlace (s : State) : State := tpsFreed (buFreed (testHead s))

/-! ## The end of start-up -/

/-- The operation in flight with its stage. -/
def Hs.opStage (h : Hs) : Option (Op × Stage) := h.op.map (fun o => (o.op, o.stage))

/-- The gap in seconds (R196). -/
def gapOf (startEnd : Nat) (loss : Option Nat) : Nat :=
  match loss with
  | some l => startEnd - l
  | none => 0

/-- The gap category (R196). -/
def gapCategory (b : Bu) : Option Category :=
  match b.jobSt with
  | .opened => some (if b.breakdown.isSome then .breakdown else .standby)
  | .suspended => some .held
  | .closing => none
  | .noJob => none

/-- The gap is accrued, the loss category used, and the open interval marked (R196). -/
def accrueGap (gap : Nat) (s : State) : State :=
  let b := { s.bu with lossCat := none }
  match gapCategory b with
  | none => s.setBu b
  | some c =>
    (s.setBu (b.accrue c gap)).setDib (s.dib.onOpen (fun v => { v with powerGap := true }))

/-- A RECOVERY record built after the gap has been accrued (R197). -/
def newRecovery (gap : Nat) (lossCat : Option Category) (s : State) : Recovery where
  job := if s.bu.jobSt = .noJob then 0 else (s.bu.job.map JobRec.number).getD 0
  lossSec := s.tps.lossSec
  startEnd := s.now
  gap := gap
  gapCat := gapCategory s.bu
  lossCat := lossCat
  jobSt := s.bu.jobSt
  seq := s.hs.seq
  op := s.hs.opStage
  count := 1

/-- A held record absorbs a later recovery (R197); its gap stops at the top of its four bytes (DESIGN
CHOICE: log 18). -/
def Recovery.absorb (held new : Recovery) : Recovery :=
  { held with
    startEnd := new.startEnd
    gap := addTop32 held.gap new.gap
    gapCat := new.gapCat, lossCat := new.lossCat, jobSt := new.jobSt, seq := new.seq, op := new.op
    count := min (held.count + 1) 255 }

/-- The RECOVERY record is handed over, held, or merged into one still held; answers the sequence
number it took (R197). -/
def recordRecovery (r : Recovery) (s : State) : State × Option Nat :=
  match s.tps.heldRecovery with
  | some h => (s.setTps { s.tps with heldRecovery := some (h.absorb r) }, none)
  | none =>
    let (s, n) := handOver .recovery r.job r.body false none s
    match n with
    | some q => (s, some q)
    | none => (s.setTps { s.tps with heldRecovery := some r }, none)

/-- The TPS's work at the end of a warm recovery's start-up (R196, R197). -/
def endWarm (s : State) : State :=
  let gap := gapOf s.now s.tps.lossSec
  let lossCat := s.bu.lossCat
  let s := accrueGap gap (s.setTps { s.tps with recoveryPending := false })
  let (s, n) := recordRecovery (newRecovery gap lossCat s) s
  s.raise (.poweredWarm gap (gapCategory s.bu) s.hs.seq s.hs.opStage n)

/-- The end of a cold start's start-up (R194). -/
def endCold (s : State) : State := (s.setTps { s.tps with valid := true }).raise .poweredCold

/-- Start-up ends when both reports have been received (R195). -/
def tryEndStartUp (s : State) : State :=
  if s.tps.phase = .startUp && s.tps.inputsReported && s.tps.storeReported then
    let s := s.setTps { s.tps with phase := .running, startEnd := some s.now }
    let s := match s.tps.startKind with | .cold => endCold s | .warm => endWarm s
    testFinal (settle (loaderTest s))
  else s

/-! ## The store's reports -/

/-- The end of the writer's recovery or of the scan: the freed-place report and the report to the TPS,
and the writer then takes its writes (R131, R142, R143). R142 does not say which report is first: here
the freed-place report is (DESIGN CHOICE: log 8). -/
def storeReady (s : State) : State :=
  let s := freedPlace (s.setRws { s.rws with recovering := none, accepting := true })
  let s := tryEndStartUp (s.setTps { s.tps with storeReported := true })
  s.setRws (writerTest s.rws)

/-- After a step of the writer: its recovery ends, or it takes its next write (R132, R142). -/
def writerGoesOn (s : State) : State :=
  if s.rws.recovered then storeReady s else s.setRws (writerTest s.rws)

/-! ## The two kinds of start -/

/-- A cold start: every retained item takes its cold value, and the scan of the store begins (R143,
R194). What stays is the store, the wiring, and the commands that wait. A block whose program operation
the start cuts off stays as it was before it (DESIGN CHOICE: log 44). -/
def coldStart (s : State) : State :=
  { State.reset with
    sfe := .reset s.sfe.raw
    rws := { Rws.reset with store := s.rws.store, halfErased := s.rws.halfErased }
    pending := s.pending }

/-- The monitor after a warm recovery (R43). -/
def Cm.warm (c : Cm) : Cm :=
  { Cm.reset with
    lossLatch := c.lossLatch
    gainLatch := c.gainLatch
    divert := if c.divert = .requested then .failed else c.divert
    cum := c.cum
    fcResult := c.fcResult
    fcSecond := c.fcSecond
    fcVolume := c.fcVolume }

/-- The carousel table after a warm recovery: a loader operation is WAITING (R62). -/
def Rrc.warm (r : Rrc) : Rrc :=
  { r with loader := r.loader.map (fun o => { o with phase := .waiting }) }

/-- The builder after a warm recovery (R124). -/
def Dib.warm (hold : Bool) (d : Dib) : Dib :=
  { d with
    dstate := if hold then .held else .fault
    encFaulted := true
    headLast := none }

/-- The link after a warm recovery (R190). -/
def Lc.warm (l : Lc) : Lc :=
  { Lc.reset with
    trial := l.lastRate
    lastRate := l.lastRate
    notices := l.notices.map Notice.requeue
    mask := l.mask }

/-- A warm recovery begins (R43, R62, R75, R103, R124, R142, R190, R195, R199). -/
def warmStart (s : State) : State :=
  let s : State :=
    { s with
      sfe := .reset s.sfe.raw
      cm := s.cm.warm
      rrc := s.rrc.warm
      aha := .reset
      dib := s.dib.warm s.hs.depthHold
      lc := s.lc.warm
      tps := { s.tps with
        phase := .startUp, inputsReported := false, storeReported := false, startKind := .warm
        startEnd := none }
      reports := [] }
  let s := recoverStart (s.storeParam 17 0)
  if s.rws.recovered then storeReady s else s

/-- Power returns after a number of seconds, by the battery's clock (R191, R193). -/
def powerReturns (secondsOff : Nat) (batteryGood : Bool) (s : State) : State :=
  let s := s.setTps { s.tps with clock := (s.tps.clock + secondsOff) % 2 ^ 32 }
  if s.tps.valid && batteryGood then warmStart s else coldStart s

/-! ## The warning -/

/-- The sequencer at the warning (R101). -/
def Hs.interrupted (h : Hs) : Hs :=
  if h.seq = .idle then h else { h with seq := .interrupted, cause := none, stall := none }

/-- The category that a warning records: the one given at the last tick, or STANDBY before the first
tick since the restart (R157). -/
def lossCategory (s : State) : Category :=
  if s.cm.win.isNone then .standby else s.bu.category

/-- The line stops (R190). -/
def Lc.stopped (l : Lc) : Lc :=
  { l with
    locked := false, trial := l.lastRate, silence := none, collect := none, byteTimer := none, rx := []
    tx := none, built := none, holdTake := false, clearing := false }

/-- The hold actions at a power-fail warning (R75, R101, R141, R157, R190, R192). -/
def powerFails (s : State) : State :=
  let t := s.tps
  let t := if t.recoveryPending then t else { t with lossSec := some t.clock, recoveryPending := true }
  let s := disarmGroup .g1 s
  { s with
    aha := .reset
    hs := s.hs.interrupted
    rws := rwsPowerFail s.rws
    bu := { s.bu with lossCat := some (lossCategory s) }
    lc := s.lc.stopped
    tps := { t with phase := .off }
    reports := [] }

end Sys2Proof.Machine
end

