-- ==== Sys2Proof/Machine/Readout.lean ====
section
/-! DEFINITION. What the read messages and the status-carrying replies hold (R16, R42, R61, R77, R123,
R156, R161, R173, R187), in the layout of R200 (log 10). -/

namespace Sys2Proof.Machine

/-! ## Signals (R16) -/

/-- Encoder state and cause (R6). -/
def Enc.bytes : Enc → List Byte
  | .good => be 1 1 ++ be 1 0
  | .fault c => be 1 2 ++ be 1 c.code

def Analogue.bytes (a : Analogue) : List Byte := be 1 a.st.code ++ optF 2 a.value

/-- A group's select set, pattern, status, mismatch set and flag (R12). -/
def Group.bytes (g : Group) : List Byte :=
  setBytes g.sel ++ setBytes g.pat ++ be 1 (if g.mism = 0#16 then 1 else 2) ++ setBytes g.mism
    ++ mark g.flag

def signalsFields (f : Sfe) : List Byte :=
  setBytes f.debounced ++ be 4 f.stroke1 ++ be 4 f.stroke2 ++ be 4 f.retCount ++ be 4 f.rotCount
    ++ mark f.rotating ++ f.enc.bytes ++ optF 2 f.head ++ f.pit.bytes ++ f.press.bytes ++ f.torque.bytes
    ++ f.g0.bytes ++ f.g1.bytes ++ f.g2.bytes ++ f.g3.bytes

/-! ## Balance (R42) -/

/-- A pump's figures; `n` is its strokes in the window in progress. -/
def PumpRec.bytes (r : PumpRec) (n disp eff : Nat) : List Byte :=
  be 1 r.st.code ++ be 2 r.rate ++ opt0 2 r.interval ++ be 2 r.remainder ++ be 1 n ++ be 2 disp
    ++ be 2 eff

/-- The last window record (R22). -/
def WinRec.bytes (r : WinRec) : List Byte :=
  be 1 r.strokes1 ++ mark r.over1 ++ be 1 r.strokes2 ++ mark r.over2 ++ be 3 r.in1 ++ be 3 r.in2
    ++ be 4 r.ret ++ beInt 3 r.d ++ be 1 r.clamp.code ++ beInt 4 r.declared ++ optF 4 r.pit
    ++ be 1 r.mon.code

/-- A latch: its mark, source and set second (R25). -/
def latchBytes (l : Option Latch) : List Byte :=
  mark l.isSome ++ be 1 ((l.map (fun x => x.src.code)).getD 0) ++ be 4 ((l.map Latch.sec).getD 0)

/-- An entry of the ring (R24). -/
def RingEntry.bytes (e : RingEntry) : List Byte :=
  beInt 3 e.d ++ be 1 e.clamp.code ++ optF 4 e.pit ++ beInt 4 e.declared

/-- The figures that READ BALANCE carries in one monitor state only (R42). -/
def monitorBytes (c : Cm) : List Byte :=
  match c.mon with
  | .flowCheck => be 3 c.fcVol ++ be 3 (c.fcTimer.getD 0)
  | .settling => be 1 c.settle
  | .idle => be 4 c.span.sum
  | .holeWatch => be 4 c.span.sum ++ beInt 4 (c.ref.getD 0) ++ beInt 4 c.hiStep ++ beInt 4 c.loStep
  | .watchEntry => be 2 c.capCount ++ be 3 c.entryVol ++ be 2 (c.capTimer.getD 0)
  | .watching => []

/-- Part 0 of READ BALANCE: all but the ring entries (R42, R203). Before the first window the seconds
remaining in it, and its strokes, are shown as 0 (DESIGN CHOICE: log 31). A last window record that is
absent is its presence mark alone (DEDUCED: log 10). -/
def balancePart0 (s : State) : List Byte :=
  let c := s.cm
  let n1 := (c.win.map Window.strokes1).getD 0
  let n2 := (c.win.map Window.strokes2).getD 0
  be 1 c.mon.code ++ be 1 c.cond.code
    ++ c.pump1.bytes n1 (s.paramNat 10) (s.paramNat 11)
    ++ c.pump2.bytes n2 (s.paramNat 12) (s.paramNat 13)
    ++ be 2 (s.paramNat 14) ++ be 1 (s.paramNat 1) ++ be 1 ((c.win.map Window.left).getD 0)
    ++ mark c.lastWin.isSome ++ (match c.lastWin with | some r => r.bytes | none => [])
    ++ beInt 3 c.sum ++ be 1 c.lossSus ++ be 1 c.gainSus ++ be 1 c.lossClr ++ be 1 c.gainClr
    ++ be 1 c.disagree ++ latchBytes c.lossLatch ++ latchBytes c.gainLatch ++ be 1 c.divert.code
    ++ be 6 c.cum ++ be 1 c.fcResult.code ++ optSec c.fcSecond ++ optF 3 c.fcVolume
    ++ monitorBytes c ++ optF 2 s.sfe.press.value ++ be 1 s.sfe.press.st.code

/-- Part 1 of READ BALANCE: S, the ring length in force, the ring entries (R203). -/
def balancePart1 (s : State) : List Byte :=
  beInt 3 s.cm.sum ++ be 1 s.inForce.n ++ listOf RingEntry.bytes s.cm.ring

/-! ## Tally (R61) -/

/-- The string position of a location, if it has one, and the slot (R44). -/
def Loc.position : Loc → Option Nat
  | .string p => some p
  | _ => none

def Loc.slotNo : Loc → Option Nat
  | .slot n => some n
  | _ => none

/-- A location, its string position (range 1 to 128) and its slot (range 0 to 39), each a field of its
own with its own absence marker (R44, R201). -/
def Loc.bytes (l : Loc) : List Byte := be 1 l.code ++ opt0 1 l.position ++ optF 1 l.slotNo

def Rod.bytes (i : Nat) (r : Rod) : List Byte :=
  be 1 i ++ serialBytes r.serial ++ be 2 r.length ++ be 1 r.cls ++ r.loc.bytes ++ be 2 r.conns
    ++ be 4 r.dist ++ mark r.worn ++ be 4 r.regSec

/-- The rod that a slot holds: a LOADED slot its own, a RESERVED slot the reservation's while that
rod's location is the slot (R52). -/
def Rrc.heldBy (r : Rrc) (n : Nat) : Option Nat :=
  match r.slotAt n with
  | .empty => none
  | .loaded i => some i
  | .reserved _ _ i => if r.rodInSlot i n then some i else none

/-- A slot's state. -/
def Slot.code : Slot → Nat
  | .empty => 1
  | .loaded _ => 2
  | .reserved _ _ _ => 3

/-- A slot's reservation: owner, intent and rod, each absent where there is none (R52). -/
def Slot.reservation : Slot → List Byte
  | .reserved o t i => be 1 o.code ++ be 1 t.code ++ be 1 i
  | _ => be 1 0 ++ be 1 0 ++ optF 1 none

/-- A slot's entry: its number, state, the rod it holds, and its reservation (R52, R61). -/
def Rrc.slotBytes (r : Rrc) (n : Nat) : List Byte :=
  be 1 n ++ be 1 (r.slotAt n).code ++ optF 1 (r.heldBy n) ++ (r.slotAt n).reservation

/-- The rods in use, with their entry numbers, in ascending entry number. -/
def Rrc.inUse (r : Rrc) : List (Nat × Rod) :=
  allEntries.filterMap (fun i => (r.rod i).map (fun rod => (i, rod)))

/-- The number of rods whose location has a code (R61). -/
def Rrc.countAt (r : Rrc) (code : Nat) : Nat := (r.inUse.filter (fun p => p.2.loc.code == code)).length

/-- The summary of every READ TALLY reply (R61). -/
def tallySummary (s : State) : List Byte :=
  let r := s.rrc
  be 1 r.inUse.length ++ [1, 2, 3, 4, 5].flatMap (fun c => be 1 (r.countAt c))
    ++ be 1 r.string.length ++ be 3 s.stringLength ++ opt0 1 r.stringClass ++ optF 1 r.arm
    ++ be 1 r.index ++ be 1 r.stepDir.code ++ mark r.stepMark ++ mark r.hold
    ++ (match r.loader with
        | none => be 1 1 ++ be 1 255 ++ be 1 255 ++ be 1 0
        | some o => be 1 o.kind.code ++ be 1 o.slot ++ be 1 o.rod ++ be 1 o.phase.code)

/-- A view's reply: at most 8 items, the summary, and where the next part begins (R61). -/
def tallyReply (items : List (Nat × List Byte)) (s : State) : Reply :=
  .ok (listOf Prod.snd (items.take 8) ++ tallySummary s
    ++ optF 6 (((items.drop 8).head?).map Prod.fst))

/-- READ TALLY (R61, R201). A numeric starting point is the number that all six bytes spell, of which
12.3 names the last (DESIGN CHOICE: log 30). -/
def readTally (view : Byte) (start : BitVec 48) (s : State) : Reply :=
  let r := s.rrc
  let n := start.toNat
  match view.toNat with
  | 1 =>
    if !serialValid start then .refuse .range
    else
      match r.find start with
      | none => .refuse .unknownRod
      | some i =>
        tallyReply (match r.rod i with | some rod => [(i, rod.bytes i)] | none => []) s
  | 2 =>
    if n < Config.registrySize then
      tallyReply ((r.inUse.filter (fun p => n ≤ p.1)).map (fun p => (p.1, p.2.bytes p.1))) s
    else .refuse .range
  | 3 =>
    if 1 ≤ n && n ≤ Config.stringTop then
      tallyReply (((r.string.zipIdx 1).filter (fun p => n ≤ p.2)).map
        (fun p => (p.2, be 1 p.2 ++ be 1 p.1.1 ++ optF 2 p.1.2))) s
    else .refuse .range
  | 4 =>
    if n < Config.slotCount then
      tallyReply (((List.range Config.slotCount).filter (n ≤ ·)).map (fun k => (k, r.slotBytes k))) s
    else .refuse .range
  | _ => .refuse .range

/-! ## Handling status (R77) -/

/-- The held or fault cause, one byte: the sequencer state before it tells which list codes it (R77;
log 10). -/
def stopCode : Option StopCause → Nat
  | some (.held c _) => c.code
  | some (.fault _ c) => c.code
  | none => 0

/-- The trip record (R97). -/
def TripRec.bytes (t : TripRec) : List Byte :=
  be 1 t.dir.code ++ be 1 t.count ++ be 1 t.done ++ mark t.stop ++ be 1 (if t.ended.isSome then 2 else 1)
    ++ be 4 t.start ++ be 1 ((t.ended.map (fun e => e.1.code)).getD 0) ++ optSec (t.ended.map Prod.snd)

/-- The handling status that every reply to a handling message carries (R77). With no operation record
its fields carry their markers, and a trip record that is absent is its presence mark alone (DEDUCED:
log 10). -/
def handlingStatus (s : State) : List Byte :=
  let h := s.hs
  be 1 h.seq.code
    ++ (match h.op with
        | none => be 1 0 ++ be 6 0 ++ be 1 255 ++ be 1 0 ++ be 1 0
        | some o =>
          be 1 o.op.code ++ serialBytes (s.rrc.serialOf o.rod) ++ be 1 o.slot
            ++ be 1 (stageCode o.op o.stage) ++ mark o.begun)
    ++ be 1 (stopCode h.cause) ++ mark h.trip.isSome
    ++ (match h.trip with | none => [] | some t => t.bytes) ++ mark h.depthHold

/-! ## Intervals (R123) -/

def Interval.bytes (v : Interval) : List Byte :=
  be 3 v.job ++ be 2 v.number ++ be 4 v.top ++ be 2 v.length ++ be 4 v.boundary ++ be 4 v.openSec
    ++ be 4 v.drillSecs ++ be 6 v.pSum ++ be 4 v.pCount ++ optF 2 v.peak ++ be 4 v.loss ++ be 4 v.gain
    ++ listOf (fun m => be 1 m.1 ++ be 4 m.2) v.mats ++ be 4 v.other ++ be 1 (v.flagByte false)
    ++ opt0 1 v.lith ++ opt0 2 v.bag ++ opt0 1 v.remark ++ mark v.final ++ optF 2 v.meanPressure

/-- An entry of the sample queue (R123), its interval number before the fields that R123 lists (DEDUCED:
log 10). The flags' bit 6 marks the due and grace expiry seconds present (R201, R204). A grace expiry
second past the top of the clock is written as its low 32 bits (DESIGN CHOICE: log 38). -/
def Entry.bytes (e : Entry) : List Byte :=
  let d := e.due.getD (0, 0)
  be 2 e.iv.number ++ be 1 (if e.st = .awaiting then 1 else 2) ++ be 6 e.lag ++ be 4 d.1
    ++ be 4 d.2 ++ opt0 1 e.iv.lith ++ opt0 2 e.iv.bag ++ opt0 1 e.iv.remark ++ mark e.iv.final
    ++ mark e.flush ++ mark e.ready ++ optF 4 e.rop
    ++ be 1 (e.iv.flagByte e.due.isSome)

/-- READ INTERVALS (R123). An open interval that is absent is its presence mark alone (DEDUCED: log
10). -/
def intervalsFields (start : Nat) (s : State) : List Byte :=
  let d := s.dib
  let l := d.queue.dropWhile (fun e => e.iv.number < start)
  be 1 d.dstate.code ++ be 4 d.depth ++ mark d.unset ++ mark d.encFaulted ++ beInt 4 d.offset
    ++ mark s.hs.depthHold ++ optF 2 d.headLast ++ be 3 d.lenLast ++ be 4 d.hwm ++ be 4 d.jobStart
    ++ opt0 3 d.jobNo ++ mark d.openIv.isSome
    ++ (match d.openIv with | some v => v.bytes | none => [])
    ++ be 1 d.queue.length ++ be 2 d.nextInterval ++ listOf Entry.bytes (l.take 4)
    ++ opt0 2 ((l.drop 4).head?.map (fun e => e.iv.number)) ++ be 6 d.cumLast

/-! ## Billing (R156, R161, R172, R173) -/

def Ticket.summary (t : Ticket) : List Byte :=
  be 4 t.number ++ be 3 t.job ++ be 1 t.kind.code ++ be 5 t.total
    ++ be 1 (if t.recSeq.isSome then 2 else 1) ++ opt0 4 t.recSeq

/-- The ticket list as it stands (R172). -/
def ticketList (b : Bu) : List Byte := listOf Ticket.summary b.tickets

/-- An accumulator set: each band's footage with its lower bound, the seconds of the ten categories, of
which there are always ten (log 10), and the items that are not 0 (R156). -/
def Accum.bytes (bounds : List Nat) (a : Accum) : List Byte :=
  listOf (fun p => be 4 p.1 ++ optF 3 bounds[p.2]?) (a.footage.zipIdx 0)
    ++ a.time.flatMap (be 4)
    ++ listOf (fun p => be 1 p.2 ++ be 4 p.1) ((a.mats.zipIdx 1).filter (fun p => p.1 != 0))

/-- READ ACCRUALS (R156, R172, R203). The close second stands in the record from CLOSING until the
next OPEN JOB (R162). -/
def accrualsFields (part : Nat) (s : State) : List Byte :=
  let b := s.bu
  let bounds := (b.jobTariff.map (fun t => t.bands.map Prod.fst)).getD []
  be 1 b.jobSt.code ++ opt0 3 (b.job.map JobRec.number) ++ opt0 1 (b.job.map JobRec.tariff)
    ++ optSec (b.job.map JobRec.openSec)
    ++ optSec (b.job.bind JobRec.closeSec)
    ++ be 4 b.openSecs ++ be 1 b.category.code ++ optSec b.breakdown ++ be 4 s.dib.hwm
    ++ be 4 s.dib.jobStart
    ++ (if part = 0 then b.totals.bytes bounds else b.since.bytes bounds ++ optSec b.sinceFrom)
    ++ be 1 ((b.lossCat.map Category.code).getD 0) ++ ticketList b

/-- READ TARIFF of a tariff (R161, R202). -/
def tariffFields (part : Nat) (t : Tariff) (used : Bool) : List Byte :=
  if part = 0 then
    be 1 t.id ++ t.nameBytes ++ be 1 t.bands.length ++ t.bandBytes ++ t.rateBytes ++ mark used
  else be 2 t.itemSet ++ (allItems.filterMap t.item).flatMap Item.bytes ++ mark used

def readTariff (id part : Nat) (b : Bu) : Reply :=
  if id < 1 || 4 < id || 1 < part then .refuse .range
  else
    match b.tariffAt id with
    | none => .refuse .notFound
    | some t => .ok (tariffFields part t (b.inUse id))

/-- A ticket line (R166). -/
def Line.bytes (l : Line) : List Byte :=
  (match l.what with
    | .band n bound => be 1 n ++ be 3 bound
    | .time c => be 1 c.code
    | .item code unit => be 1 code ++ be 6 unit.toNat)
    ++ be 4 l.qty ++ be 3 l.rate ++ be 5 l.charge

/-- The part count of a ticket: 12 lines a part (R173). -/
def Ticket.parts (t : Ticket) : Nat := max 1 ((t.lines.length + 11) / 12)

/-- The ticket that a number addresses; 0 addresses the oldest (R173). -/
def Bu.findTicket (b : Bu) (n : Nat) : Option Ticket :=
  if n = 0 then b.tickets.head? else b.tickets.find? (fun t => t.number == n)

/-- READ TICKET (R173). -/
def readTicket (n part : Nat) (b : Bu) : Reply :=
  match b.findTicket n with
  | none => .refuse .notFound
  | some t =>
    if t.parts ≤ part then .refuse .range
    else
      .ok (be 3 t.job ++ be 4 t.number ++ be 1 t.kind.code ++ be 1 t.tariff ++ be 4 t.fromSec
        ++ be 4 t.toSec ++ be 5 t.total ++ mark t.saturated ++ be 1 (if t.recSeq.isSome then 2 else 1)
        ++ opt0 4 t.recSeq ++ be 1 t.parts ++ listOf Line.bytes ((t.lines.drop (12 * part)).take 12)
        ++ ticketList b)

/-! ## The link's own replies (R185, R187) -/

/-- The text of the part identity, WD-640, as a name of 16 characters (R187; log 10). -/
def identityCodes : List Nat := [33, 14, 39, 7, 5, 1, 0, 0, 0, 0, 0, 0, 0, 0, 0, 0]

def identityName : Nat := identityCodes.foldl (fun n c => n * 64 + c) 0

/-- The number of kinds in a state (R187). -/
def countNotices (st : NoticeSt) (l : List Notice) : Nat := (l.filter (fun n => n.st == st)).length

/-- IDENTIFY (R187), the revision number in one byte (DEDUCED: log 10). -/
def identifyFields (s : State) : List Byte :=
  be 12 identityName ++ be 1 Config.revision ++ be 3 s.lc.lastRate.bits ++ be 1 s.tps.startKind.code
    ++ optSec s.tps.startEnd ++ be 4 s.now ++ be 1 (countNotices .waiting s.lc.notices)
    ++ be 1 (countNotices .sent s.lc.notices)

/-- The whole notice set with its masks (R185): always the 24 kinds in code order, with no count before
them (DEDUCED: log 10). -/
def noticeSetBytes (l : Lc) : List Byte :=
  (l.notices.zipIdx 0).flatMap (fun p =>
    be 1 p.1.st.code ++ mark p.1.again ++ be 1 p.1.count ++ mark (l.mask.getLsbD p.2))

/-- GET PARAMETER: value, range and default (R53, R108, R188). -/
def State.reported (s : State) (n : Nat) : Int :=
  if n = 21 then s.rrc.index else if n = 24 then s.dib.offset else s.param n

def getParameter (n : Nat) (s : State) : Reply :=
  match paramRange n with
  | none => .refuse .range
  | some r => .ok (beInt 4 (s.reported n) ++ beInt 4 r.low ++ beInt 4 r.high ++ beInt 4 r.dflt)

end Sys2Proof.Machine
end

