-- ==== Sys2Proof/Machine/Requests.lean ====
section
/-! DEFINITION. What each request does at the block that owns it, and its reply (R180, R181, R195). -/

namespace Sys2Proof.Machine

/-- A refusal: nothing has changed (R181). -/
def refused (r : Reason) (s : State) : State × Reply := (s, .refuse r)

/-- A plain DONE. -/
def done (s : State) : State × Reply := (s, .ok)

/-! ## Parameters (R182, R188) -/

/-- The reply to a parameter write: DONE, or CLAMPED, with the value stored (R188). -/
def paramReply (wanted stored : Int) : Reply :=
  if wanted = stored then .ok (beInt 4 stored) else .clamp (beInt 4 stored)

/-- HEAD HEIGHT PRESET (R8, R107). -/
def ownHeadPreset (v : Int) (s : State) : State × Reply :=
  if s.sfe.enc = .good then refused .state s
  else
    let x := PRange.clamp ⟨0, 7500, 0⟩ v
    let s := s.storeParam 17 x
    let s := s.setSfe { s.sfe with head := some x.toNat, enc := .good }
    (settle (hsHead (dibEncoder none s)), paramReply v x)

/-- An index motion is requested, suspended or running (R53). -/
def Aha.indexStands (a : Aha) : Bool := a.standing.any (fun r => r.fn == .index)

/-- INDEX PRESET (R53). -/
def ownIndexPreset (v : Int) (s : State) : State × Reply :=
  if s.on .indexLocked && !s.aha.indexStands then
    let x := PRange.clamp ⟨0, 39, 0⟩ v
    (s.setRrc { s.rrc with index := x.toNat, stepMark := false }, paramReply v x)
  else refused .state s

/-- DEPTH OFFSET (R108). -/
def ownDepthOffset (v : Int) (s : State) : State × Reply :=
  if s.bu.jobSt = .noJob then
    let x := PRange.clamp ⟨-100000, 100000, 0⟩ v
    (recompute (s.setDib { s.dib with offset := x }), paramReply v x)
  else refused .state s

/-- What storing a parameter causes at once (R50, R51). -/
def afterStore (n : Nat) (old new : Int) (s : State) : State :=
  if n = 18 then deliverLength s
  else if (n = 19 || n = 20) && new < old then testAllLimits s
  else s

/-- SET PARAMETER (R188). -/
def ownSetParameter (n : Nat) (v : Int) (s : State) : State × Reply :=
  match paramRange n with
  | none => refused .range s
  | some r =>
    if n = 17 then ownHeadPreset v s
    else if n = 21 then ownIndexPreset v s
    else if n = 24 then ownDepthOffset v s
    else
      let x := r.clamp v
      (afterStore n (s.param n) x (s.storeParam n x), paramReply v x)

/-- A parameter number's value clamped to its range. -/
def clampParam (n : Nat) (v : Int) : Int :=
  match paramRange n with
  | some r => r.clamp v
  | none => v

/-- SET PUMP (R20). -/
def ownSetPump (pump : Byte) (disp eff : Nat) (s : State) : State × Reply :=
  match pumpOfCode pump with
  | none => refused .range s
  | some p =>
    let n := match p with | .one => 10 | .two => 12
    let x := clampParam n disp
    let y := clampParam (n + 1) eff
    ((s.storeParam n x).storeParam (n + 1) y,
      if x = (disp : Int) ∧ y = (eff : Int) then .ok else .clamp (beInt 2 x ++ beInt 2 y))

/-- SET RETURN METER (R20). -/
def ownSetReturnMeter (k : Nat) (s : State) : State × Reply :=
  let x := clampParam 14 k
  (s.storeParam 14 x, if x = (k : Int) then .ok else .clamp (beInt 2 x))

/-! ## The link's and the front end's own -/

/-- SET NOTICE MASK (R186). -/
def ownSetNoticeMask (kinds : KindSet) (s : State) : State × Reply :=
  (s.setLc { s.lc with mask := kinds }, .ok (kindBytes kinds))

/-- The bit of GROUP MISMATCH, kind 7, in a set of kinds. -/
def groupMismatchBit : Nat := 6

/-- ACK NOTICES (R15, R185). -/
def ownAckNotices (kinds : KindSet) (s : State) : State × Reply :=
  let s := s.setLc { s.lc with notices := ackSet kinds s.lc.notices }
  let s := if kinds.getLsbD groupMismatchBit then clearGroupFlag .g3 s else s
  (s, .ok (noticeSetBytes s.lc))

/-- No record and no interval waits to be written, or the sequence numbers are exhausted (R189). -/
def nothingUnwritten (s : State) : Bool :=
  s.rws.exhausted
    || (s.rws.queue.isEmpty && s.rws.slot.isNone && s.bu.outbox.isEmpty && s.dib.queue.isEmpty
        && s.tps.heldRecovery.isNone)

/-- CLEAR ALL (R189): no further request is taken, and the cold start, which drops the frames of the
receive buffer, follows when the reply has gone out in full. -/
def ownClearAll (s : State) : State × Reply :=
  if s.bu.jobSt != .noJob then refused .jobOpen s
  else if s.hs.seq != .idle then refused .state s
  else if !nothingUnwritten s then refused .busy s
  else done (s.setLc { s.lc with clearing := true })

/-- SET CLOCK (R155). -/
def ownSetClock (second : Nat) (s : State) : State × Reply :=
  if s.bu.jobSt != .noJob then refused .state s
  else
    let d := { s.dib with queue := s.dib.queue.map (shiftGrace s.now second) }
    ((s.setDib d).setTps { s.tps with clock := second }, .ok (be 4 second))

/-- GROUP MISMATCH of group 3 (R15). -/
def raiseGroup3 (s : State) : State := s.raise (.groupMismatch s.sfe.g3.mism s.sfe.ms)

/-- SET WATCH (R14, R15). -/
def ownSetWatch (sel pat : SwitchSet) (s : State) : State × Reply :=
  let (s, raised) := writeGroup .g3 sel pat s
  done (if raised then raiseGroup3 s else s)

/-! ## Circulation -/

/-- DECLARE ADDITION (R23). -/
def ownDeclareAddition (v : Int) (s : State) : State × Reply :=
  if s.cm.mon = .watchEntry then refused .state s
  else if v = 0 ∨ v < -Config.declareTop ∨ Config.declareTop < v then refused .range s
  else done (declareVolume v s)

/-- READ BALANCE (R42, R203). -/
def ownReadBalance (part : Nat) (s : State) : State × Reply :=
  if part = 0 then (s, .ok (balancePart0 s))
  else if part = 1 then (s, .ok (balancePart1 s))
  else refused .range s

/-- ACCEPT LATCH (R34). -/
def ownAcceptLatch (code : Byte) (s : State) : State × Reply :=
  match LatchName.ofCode code with
  | none => refused .range s
  | some .loss => done (settle (clearLatch .loss .accepted s))
  | some .gain =>
    if s.cm.mon = .idle ∧ s.cm.fcResult = .passed then done (settle (clearLatch .gain .accepted s))
    else refused .interlock s

/-- ENTER HOLE WATCH (R35). -/
def ownEnterWatch (s : State) : State × Reply :=
  if s.cm.mon = .idle ∧ s.hs.seq = .idle then
    if s.sfe.pit.isFaulted then refused .interlock s else done (settle (enterWatch s))
  else refused .state s

/-- LEAVE HOLE WATCH (R40). -/
def ownLeaveWatch (s : State) : State × Reply :=
  if s.cm.mon = .watchEntry ∨ s.cm.mon = .holeWatch then done (settle (leaveWatch s))
  else refused .state s

/-! ## Rods -/

/-- REGISTER ROD (R45). -/
def ownRegisterRod (serial : Serial) (length cls : Nat) (s : State) : State × Reply :=
  if !serialValid serial then refused .range s
  else if length < 1500 ∨ 6100 < length then refused .range s
  else if cls < 1 ∨ 4 < cls then refused .range s
  else if (s.rrc.find serial).isSome then refused .slotOccupied s
  else
    match s.rrc.newEntry with
    | none => refused .listFull s
    | some (i, retired) =>
      let rod : Rod := ⟨serial, length, cls, .rack, 0, 0, false, s.now⟩
      (s.setRrc { s.rrc with registry := s.rrc.registry.set i (some rod), retired := retired },
        .ok (be 1 i))

/-- A loader reservation names a rod (R46). -/
def Rrc.loaderNames (r : Rrc) (i : Nat) : Bool :=
  r.slots.any (fun x => match x with | .reserved .loader _ j => j == i | _ => false)

/-- A rod's location, if the entry is in use. -/
def Rrc.locOf (r : Rrc) (i : Nat) : Option Loc := (r.rod i).map Rod.loc

/-- RETIRE ROD (R46). -/
def ownRetireRod (serial : Serial) (s : State) : State × Reply :=
  if !serialValid serial then refused .range s
  else
    match s.rrc.find serial with
    | none => refused .unknownRod s
    | some i =>
      if s.rrc.locOf i != some .rack then refused .state s
      else if s.rrc.loaderNames i then refused .busy s
      else
        done (s.setRrc { (s.rrc.moveRod i .retired) with retired := s.rrc.retired ++ [i] })

/-- The slot for a load: the named one or the nearest EMPTY one (R56). -/
def Rrc.chooseLoad (r : Rrc) (named : Option Nat) : Except Reason Nat :=
  match named with
  | some n =>
    if Config.slotCount ≤ n then .error .range
    else if (r.slotAt n).isEmpty then .ok n
    else .error .slotOccupied
  | none =>
    match r.nearest Slot.isEmpty with
    | some n => .ok n
    | none => .error .slotOccupied

/-- A loader operation begins: the slot is reserved, and the loader tests its condition (R56 to
R58). -/
def beginLoader (kind : LoadKind) (intent : Intent) (slot rod : Nat) (s : State) : State :=
  settle (loaderTest (s.setRrc
    { (s.rrc.putSlot slot (.reserved .loader intent rod)) with
      loader := some ⟨kind, slot, rod, .waiting⟩ }))

/-- LOAD SLOT (R56). -/
def ownLoadSlot (serial : Serial) (named : Option Nat) (s : State) : State × Reply :=
  if s.rrc.loader.isSome then refused .busy s
  else if !serialValid serial then refused .range s
  else
    match s.rrc.find serial with
    | none => refused .unknownRod s
    | some i =>
      if s.rrc.locOf i != some .rack then refused .state s
      else
        match s.rrc.chooseLoad named with
        | .error r => refused r s
        | .ok n => (beginLoader .load .receive n i s, .accept (be 1 n))

/-- UNLOAD SLOT (R57). -/
def ownUnloadSlot (n : Nat) (s : State) : State × Reply :=
  if s.rrc.loader.isSome then refused .busy s
  else if Config.slotCount ≤ n then refused .range s
  else
    match s.rrc.slotAt n with
    | .empty => refused .slotEmpty s
    | .reserved _ _ _ => refused .slotOccupied s
    | .loaded i => (beginLoader .unload .take n i s, .accept)

/-- The arm is empty: a depth hold that waited for it is released (R88). -/
def armEmptied (s : State) : State := settle (setDepthHold false s)

/-- PLACE ROD (R60). -/
def ownPlaceRod (dest : Byte) (s : State) : State × Reply :=
  if s.hs.seq != .idle then refused .state s
  else
    match s.rrc.arm with
    | none => refused .state s
    | some i =>
      match Dest.ofCode dest with
      | none => refused .range s
      | some (.slot n) =>
        if (s.rrc.slotAt n).isEmpty then
          done (armEmptied (s.setRrc
            { ((s.rrc.moveRod i (.slot n)).putSlot n (.loaded i)) with arm := none }))
        else refused .slotOccupied s
      | some .string =>
        if Config.stringTop ≤ s.rrc.string.length then refused .listFull s
        else if s.rrc.fitsString (((s.rrc.rod i).map Rod.cls).getD 0) then
          done (armEmptied (deliverLength (s.setRrc (s.rrc.push i none))))
        else refused .interlock s
      | some .rack => done (armEmptied (s.setRrc { (s.rrc.moveRod i .rack) with arm := none }))

/-! ## Handling -/

/-- A handling message's reply carries the handling status as it then stands, after the message's own
fields (R77; DEDUCED: log 10). -/
def withStatus (x : State × Reply) : State × Reply :=
  (x.1, { x.2 with fields := x.2.fields ++ handlingStatus x.1 })

/-- An operation or a trip's first operation starts on its reserved slot; the reply carries the slot
and the rod's serial (R78, R97). -/
def startReply (op : Op) (slot rod : Nat) (trip : Bool) (s : State) : State × Reply :=
  (settle (startOp op slot rod trip (s.setRrc (s.rrc.reserveFor op slot rod))),
    .accept (be 1 slot ++ serialBytes (s.rrc.serialOf rod)))

/-- ADD ROD and REMOVE ROD (R77, R78). -/
def takeOperation (op : Op) (named : Option Nat) (s : State) : State × Reply :=
  if s.hs.seq != .idle then refused .busy s
  else if s.rrc.arm.isSome then refused .armOccupied s
  else
    match s.rrc.choose op named with
    | .error r => refused r s
    | .ok (slot, rod) => startReply op slot rod false s

/-- The most rods a trip may count (R97). -/
def tripLimit (d : TripDir) (rods : Nat) : Nat :=
  match d with
  | .out => rods
  | .inward => Config.stringTop - rods

/-- START TRIP (R97). -/
def ownStartTrip (dir : Byte) (count : Nat) (s : State) : State × Reply :=
  if s.hs.seq != .idle then refused .busy s
  else if s.rrc.arm.isSome then refused .armOccupied s
  else
    match TripDir.ofCode dir with
    | none => refused .range s
    | some d =>
      if count < 1 ∨ Config.stringTop < count ∨ tripLimit d s.rrc.string.length < count then
        refused .range s
      else
        match s.rrc.choose d.op none with
        | .error r => refused r s
        | .ok (slot, rod) =>
          startReply d.op slot rod true
            (s.setHs { s.hs with trip := some ⟨d, count, 0, false, s.now, none⟩ })

/-- STOP TRIP (R77, R99). -/
def ownStopTrip (s : State) : State × Reply :=
  if s.hs.seq = .idle ∨ s.hs.seq = .interrupted ∨ s.hs.tripActive = false then refused .state s
  else if s.hs.op.isNone then done (endTrip .stopped s)
  else done (s.setHs { s.hs with trip := s.hs.trip.map (fun t => { t with stop := true }) })

/-- RESUME (R14, R77, R95). -/
def ownResume (s : State) : State × Reply :=
  if s.hs.seq = .held ∨ s.hs.seq = .faulted ∨ s.hs.seq = .interrupted then
    match s.hs.op with
    | some o => if resumeAllowed o s then done (settle (resumeOp o s)) else refused .interlock s
    | none => done (settle (tripNext (clearStopFlags s)))
  else refused .state s

/-- ABORT (R77, R96). -/
def ownAbort (s : State) : State × Reply :=
  if s.hs.seq = .idle then refused .state s
  else
    match s.hs.op with
    | some o => done (settle (abortOp o s))
    | none => done (endTrip .aborted s)

/-! ## The pack -/

/-- The request of a manual jog (R73). -/
def jogReq (fn : Func) (dir : Dir) (ms : Nat) : Req :=
  { (Req.new .manual fn dir (.jog (endSwitch fn dir))) with jogMs := ms }

/-- A jog's end switch is on already (R73). -/
def jogMet (fn : Func) (dir : Dir) (s : State) : Bool :=
  match endSwitch fn dir with
  | some sw => s.on sw
  | none => false

/-- MANUAL MOVE (R73). -/
def ownManualMove (fn dir : Byte) (ms : Nat) (s : State) : State × Reply :=
  if s.hs.seq = .running ∨ s.hs.seq = .waiting then refused .state s
  else if s.aha.stands .manual then refused .busy s
  else
    match Func.ofCode fn, Dir.ofCode dir with
    | some f, some d =>
      if ms < 100 ∨ 5000 < ms then refused .range s
      else if jogMet f d s then done s
      else (settle (requestMotion (jogReq f d ms) s), .accept)
    | _, _ => refused .range s

/-- DIVERTER (R74). -/
def ownDiverter (dir : Byte) (s : State) : State × Reply :=
  if s.aha.stands .wellControl then refused .busy s
  else
    match Dir.ofCode dir with
    | none => refused .range s
    | some d =>
      if jogMet .diverter d s then done s
      else (settle (requestMotion (divertReq d true false) s), .accept)

/-! ## Intervals -/

/-- MARK INTERVAL (R117). -/
def ownMarkInterval (s : State) : State × Reply :=
  if s.bu.jobSt = .noJob then refused .noJob s
  else if s.bu.jobSt = .closing then refused .state s
  else
    match s.dib.openIv with
    | none => refused .state s
    | some iv =>
      if s.dib.hwm - iv.top < Config.depthTolerance then refused .tooShort s
      else
        match closeAtMark true s with
        | none => refused .busy s
        | some s' => (s', .ok (be 2 iv.number ++ be 4 s.dib.hwm))

/-- The fields that ANNOTATE carries, by the flags byte (12.3). -/
structure Note where
  lith : Option Nat
  bag : Option Nat
  remark : Option Nat
  final : Bool
  deriving DecidableEq, Repr

/-- The fields and the mark that ANNOTATE carries, by bits 0 to 3 of its flags byte (12.3). Bits 4 to 7
have no meaning there and are ignored (DESIGN CHOICE: log 45). -/
def noteOf (lith bag remark : Nat) (flags : Byte) : Note where
  lith := if flags.getLsbD 0 then some lith else none
  bag := if flags.getLsbD 1 then some bag else none
  remark := if flags.getLsbD 2 then some remark else none
  final := flags.getLsbD 3

/-- The annotation codes are within their ranges (R121). -/
def Note.inRange (n : Note) : Bool := n.lith.getD 0 ≤ 250 && n.remark.getD 0 ≤ 250

/-- A field carried replaces the stored one; 0 makes it absent (R121). -/
def carried (new : Option Nat) (old : Option Nat) : Option Nat :=
  match new with
  | some n => optCode n
  | none => old

def Interval.annotate (n : Note) (v : Interval) : Interval :=
  { v with
    lith := carried n.lith v.lith
    bag := carried n.bag v.bag
    remark := carried n.remark v.remark
    final := v.final || n.final }

/-- The entry that ANNOTATE addresses is annotated (R121). -/
def annotateEntry (number : Nat) (n : Note) : List Entry → List Entry
  | [] => []
  | e :: rest =>
    if e.iv.number = number ∧ e.flush = false then { e with iv := e.iv.annotate n } :: rest
    else e :: annotateEntry number n rest

/-- The open interval has a number. -/
def Dib.openIs (d : Dib) (number : Nat) : Bool :=
  match d.openIv with
  | some v => v.number == number
  | none => false

/-- ANNOTATE (R121, R201). -/
def ownAnnotate (number : Nat) (n : Note) (s : State) : State × Reply :=
  if number = 0 then refused .range s
  else if s.dib.openIs number then
    if n.inRange then done (s.setDib (s.dib.onOpen (Interval.annotate n))) else refused .range s
  else if s.dib.queue.any (fun e => e.iv.number == number && !e.flush) then
    if n.inRange then
      done (testHead (s.setDib { s.dib with queue := annotateEntry number n s.dib.queue }))
    else refused .range s
  else refused .notFound s

/-- READ INTERVALS (R123, R201). -/
def ownReadIntervals (start : Nat) (s : State) : State × Reply :=
  if start = 0 then refused .range s else (s, .ok (intervalsFields start s))

/-! ## Tariffs and jobs -/

/-- Each bound is greater than the one before it (R160). -/
def rising : List Nat → Bool
  | [] => true
  | [_] => true
  | a :: b :: rest => a < b && rising (b :: rest)

/-- The bands' count, first bound and order are as R160 asks. -/
def bandsValid (t : Tariff) : Bool :=
  1 ≤ t.bands.length && t.bands.length ≤ 8 && (t.bands.map Prod.fst).head? == some 0
    && rising (t.bands.map Prod.fst)

/-- The greatest rate or price, and the greatest bound (R159). -/
def rateTop : Nat := 10000000
def boundTop : Nat := 1000000

/-- Bounds, rates and prices are within their ranges (R160). -/
def figuresValid (t : Tariff) : Bool :=
  t.bands.all (fun b => b.1 ≤ boundTop && b.2 ≤ rateTop) && t.rates.all (· ≤ rateTop)
    && t.items.all (fun i => i.price ≤ rateTop)

/-- WRITE TARIFF (R160). -/
def ownWriteTariff (t : Tariff) (s : State) : State × Reply :=
  if t.id < 1 ∨ 4 < t.id then refused .range s
  else if s.bu.inUse t.id then refused .tariffInUse s
  else if bandsValid t && figuresValid t then
    done (s.setBu { s.bu with tariffs := s.bu.tariffs.set (t.id - 1) (some t) })
  else refused .range s

/-- A JOB OPENED record waits in the outbox (R163). -/
def Bu.openedWaits (b : Bu) : Bool :=
  b.outbox.any (fun r => match r with | .jobOpened _ _ => true | _ => false)

/-- The job is opened (R164). -/
def openJob (job id : Nat) (start : Option Nat) (t : Tariff) (s : State) : State :=
  let n := t.bands.length
  let s := s.setBu
    { s.bu with
      job := some ⟨job, id, 0, s.now, none⟩, openSecs := 0, finalWaiting := false
      totals := .zero n, since := .zero n, sinceFrom := some s.now, breakdown := none
      jobSt := .opened }
  let s := dibOpenJob job start s
  let s := s.setBu { s.bu with job := s.bu.job.map (fun j => { j with start := s.dib.jobStart }) }
  joinOutbox (.jobOpened job (jobOpenedBody t s.dib.jobStart s.dib.depth s.dib.offset)) s

/-- OPEN JOB (R163, R164). -/
def ownOpenJob (job id : Nat) (start : Option Nat) (s : State) : State × Reply :=
  if s.bu.jobSt != .noJob then refused .state s
  else if job < 1 ∨ 999999 < job then refused .range s
  else if id < 1 ∨ 4 < id then refused .range s
  else if boundTop < start.getD 0 then refused .range s
  else
    match s.bu.tariffAt id with
    | none => refused .notFound s
    | some t =>
      if !s.bu.listFree then refused .listFull s
      else if s.bu.openedWaits then refused .busy s
      else
        let s' := openJob job id start t s
        (s', .ok (be 3 job ++ be 4 s'.dib.jobStart ++ be 4 s.now))

/-- HOLD JOB (R152). -/
def ownHoldJob (s : State) : State × Reply :=
  match s.bu.jobSt with
  | .noJob => refused .noJob s
  | .opened => done (s.setBu { s.bu with jobSt := .suspended })
  | .suspended => refused .state s
  | .closing => refused .state s

/-- RELEASE JOB (R152). -/
def ownReleaseJob (s : State) : State × Reply :=
  match s.bu.jobSt with
  | .noJob => refused .noJob s
  | .suspended => done (s.setBu { s.bu with jobSt := .opened })
  | .opened => refused .state s
  | .closing => refused .state s

/-- DECLARE BREAKDOWN (R153). -/
def ownDeclareBreakdown (s : State) : State × Reply :=
  match s.bu.jobSt with
  | .noJob => refused .noJob s
  | .closing => refused .state s
  | _ => done (s.setBu { s.bu with breakdown := some (s.bu.breakdown.getD s.now) })

/-- END BREAKDOWN (R154). -/
def ownEndBreakdown (s : State) : State × Reply :=
  if s.bu.jobSt = .noJob then refused .noJob s else done (s.setBu { s.bu with breakdown := none })

/-- The job's tariff defines an item code (R151). -/
def Bu.definesItem (b : Bu) (code : Nat) : Bool :=
  match b.jobTariff with
  | some t => (t.item code).isSome
  | none => false

/-- ADD MATERIAL (R113, R151). -/
def ownAddMaterial (item qty : Nat) (s : State) : State × Reply :=
  if s.bu.jobSt = .noJob then refused .noJob s
  else if s.bu.jobSt = .closing then refused .state s
  else if qty < 1 ∨ 9999 < qty then refused .range s
  else if item < 1 ∨ 16 < item ∨ s.bu.definesItem item = false then refused .unknownItem s
  else if Config.top32 < s.bu.totals.mats.getD (item - 1) 0 + qty then refused .range s
  else
    let b := s.bu.both (Accum.addMat item qty)
    ((s.setBu b).setDib (s.dib.onOpen (addMat item qty)),
      .ok (be 4 (b.totals.mats.getD (item - 1) 0) ++ be 4 (b.since.mats.getD (item - 1) 0)))

/-- The newest ticket's figures. -/
def Bu.lastTicket (b : Bu) : List Byte :=
  match b.tickets.getLast? with
  | some t => be 4 t.number ++ be 4 t.fromSec ++ be 4 t.toSec ++ be 5 t.total
  | none => []

/-- ISSUE TICKET (R169). -/
def ownIssueTicket (s : State) : State × Reply :=
  if s.bu.jobSt = .noJob then refused .noJob s
  else if s.bu.jobSt = .closing then refused .state s
  else if !s.bu.listFree then refused .listFull s
  else
    let s' := buildTicket .interim s.now s
    (s', .ok s'.bu.lastTicket)

/-- The job enters CLOSING (R170). -/
def enterClosing (s : State) : State :=
  s.setBu
    { s.bu with
      job := s.bu.job.map (fun j => { j with closeSec := some s.now })
      jobSt := .closing, finalWaiting := true, breakdown := none }

/-- The FINAL ticket's number and total. -/
def Bu.finalFields (b : Bu) : List Byte :=
  match b.tickets.getLast? with
  | some t => be 4 t.number ++ be 5 t.total
  | none => []

/-- CLOSE JOB (R170). -/
def ownCloseJob (s : State) : State × Reply :=
  if s.bu.jobSt = .noJob then refused .noJob s
  else if s.bu.jobSt = .closing then refused .state s
  else
    match dibCloseJob s with
    | none => refused .busy s
    | some s' =>
      let s' := testFinal (enterClosing s')
      if s'.bu.jobSt = .noJob then (s', .ok (be 4 s.now ++ s'.bu.finalFields))
      else (s', .accept (be 4 s.now))

/-- A ticket leaves the list, and its record the outbox (R174). -/
def Bu.collect (b : Bu) (n : Nat) : Bu :=
  { b with
    tickets := b.tickets.filter (fun t => t.number != n)
    outbox := b.outbox.filter (fun r => match r with | .ticket k _ _ => k != n | .jobOpened _ _ => true) }

/-- COLLECT TICKET (R174). -/
def ownCollectTicket (n : Nat) (s : State) : State × Reply :=
  if n = 0 then refused .range s
  else
    match s.bu.tickets.find? (fun t => t.number == n) with
    | none => refused .notFound s
    | some t =>
      if t.recSeq.isNone && !s.rws.exhausted then refused .busy s
      else
        let s := testFinal (s.setBu (s.bu.collect n))
        (s, .ok (ticketList s.bu))

/-- READ ACCRUALS (R156, R203). -/
def ownReadAccruals (part : Nat) (s : State) : State × Reply :=
  if 1 < part then refused .range s else (s, .ok (accrualsFields part s))

/-! ## Every request -/

/-- The handling messages (R77). -/
def handlingMessage : Request → Bool
  | .addRod _ => true
  | .removeRod _ => true
  | .startTrip _ _ => true
  | .stopTrip => true
  | .resume => true
  | .abort => true
  | _ => false

/-- The requests taken until start-up ends (R195). -/
def takenInStartUp : Request → Bool
  | .identify => true
  | .readSignals => true
  | .readBalance _ => true
  | .readTally _ _ => true
  | .readIntervals _ => true
  | .readLog _ _ => true
  | .readTariff _ _ => true
  | .readTicket _ _ => true
  | .readAccruals _ => true
  | .getParameter _ => true
  | .ackNotices _ => true
  | .setNoticeMask _ => true
  | _ => false

/-- The request at its owner, start-up over. -/
def own (r : Request) (s : State) : State × Reply :=
  match r with
  | .identify => (s, .ok (identifyFields s))
  | .setParameter n v => ownSetParameter n.toNat v.toInt s
  | .getParameter n => (s, getParameter n.toNat s)
  | .setNoticeMask k => ownSetNoticeMask k s
  | .ackNotices k => ownAckNotices k s
  | .clearAll => ownClearAll s
  | .setClock t => ownSetClock t.toNat s
  | .setWatch sel pat => ownSetWatch sel pat s
  | .readSignals => (s, .ok (signalsFields s.sfe))
  | .setPump p d e => ownSetPump p d.toNat e.toNat s
  | .setReturnMeter k => ownSetReturnMeter k.toNat s
  | .declareAddition v => ownDeclareAddition v.toInt s
  | .readBalance p => ownReadBalance p.toNat s
  | .acceptLatch l => ownAcceptLatch l s
  | .enterHoleWatch => ownEnterWatch s
  | .leaveHoleWatch => ownLeaveWatch s
  | .registerRod x l c => ownRegisterRod x l.toNat c.toNat s
  | .retireRod x => ownRetireRod x s
  | .loadSlot x n => ownLoadSlot x (optSlot n) s
  | .unloadSlot n => ownUnloadSlot n.toNat s
  | .placeRod d => ownPlaceRod d s
  | .readTally v x => (s, readTally v x s)
  | .addRod n => withStatus (takeOperation .addRod (optSlot n) s)
  | .removeRod n => withStatus (takeOperation .removeRod (optSlot n) s)
  | .startTrip d n => withStatus (ownStartTrip d n.toNat s)
  | .stopTrip => withStatus (ownStopTrip s)
  | .resume => withStatus (ownResume s)
  | .abort => withStatus (ownAbort s)
  | .manualMove f d j => ownManualMove f d j.toNat s
  | .diverter d => ownDiverter d s
  | .markInterval => ownMarkInterval s
  | .annotate i l b r f => ownAnnotate i.toNat (noteOf l.toNat b.toNat r.toNat f) s
  | .readIntervals i => ownReadIntervals i.toNat s
  | .readLog q p => (s, logReply q.toNat p.toNat s.rws)
  | .writeTariff t => ownWriteTariff (wireTariff t) s
  | .readTariff i p => (s, readTariff i.toNat p.toNat s.bu)
  | .openJob j t d => ownOpenJob j.toNat t.toNat (optDepth d) s
  | .holdJob => ownHoldJob s
  | .releaseJob => ownReleaseJob s
  | .declareBreakdown => ownDeclareBreakdown s
  | .endBreakdown => ownEndBreakdown s
  | .addMaterial i q => ownAddMaterial i.toNat q.toNat s
  | .issueTicket => ownIssueTicket s
  | .closeJob => ownCloseJob s
  | .readTicket t p => (s, readTicket t.toNat p.toNat s.bu)
  | .collectTicket t => ownCollectTicket t.toNat s
  | .readAccruals p => ownReadAccruals p.toNat s

/-- A request that has been taken: during start-up all but the listed ones are answered BUSY
(R195). -/
def deal (r : Request) (s : State) : State × Reply :=
  if s.tps.phase != .running && !takenInStartUp r then
    (if handlingMessage r then withStatus (refused .busy s) else refused .busy s)
  else own r s

end Sys2Proof.Machine
end

