-- ==== Sys2Proof/Machine/Link.lean ====
section
/-! DEFINITION. The link controller (chapter 10): the hunt, frames, the taking of requests, replies and
notice frames, the re-hunt. -/

namespace Sys2Proof.Machine

/-! ## Frames that go out -/

/-- The frame kind of a notice (R200). -/
def noticeKind : Byte := 0xF0#8

/-- A notice frame, as the kind stands when the frame begins (R184, R200). -/
def noticeFrame (code : Nat) (n : Notice) : Frame :=
  ⟨noticeKind, 0#8,
    be 1 code ++ be 1 n.count ++ (match n.detail with | some d => d.bytes | none => [])⟩

/-- A notice frame begins: the kind becomes SENT with count 0 (R184). -/
def sendNotice (code : Nat) (s : State) : State :=
  s.setLc
    { s.lc with
      tx := some ⟨.notice, noticeFrame code (s.lc.notice code)⟩
      notices := s.lc.notices.modify (code - 1) Notice.send }

/-- The kind of the reply to a request kind: 80H more, or 80H for a kind not known (R200, R203). -/
def replyKind (kind : Byte) : Byte :=
  if 0x01 ≤ kind.toNat ∧ kind.toNat ≤ 0x2F then kind + 0x80#8 else 0x80#8

/-- A reply's frame (R180, R200). A payload is at most 240 bytes: fields that would pass it end there
(DESIGN CHOICE: log 10). -/
def replyFrame (kind tag : Byte) (r : Reply) : Frame :=
  ⟨replyKind kind, tag, r.payload.take Config.payloadTop⟩

/-- The transmitter, free, sends the reply that is built, or else an eligible notice (R180, R184). -/
def lcService (s : State) : State :=
  if s.lc.locked && s.lc.tx.isNone then
    match s.lc.built with
    | some b => s.setLc { s.lc with tx := some b, built := none }
    | none =>
      match s.lc.nextKind with
      | some code => sendNotice code s
      | none => s
  else s

/-- The end of every command: what the blocks handed on is taken, and the transmitter goes on
(log 7). -/
def finish (s : State) : State := lcService (settle s)

/-! ## Taking requests -/

/-- The kinds of the six handling messages, ADD ROD to ABORT (12.3). -/
def handlingKind (kind : Byte) : Bool := 0x17 ≤ kind.toNat && kind.toNat ≤ 0x1C

/-- What a request read from a frame gives: the refusal of R181, which carries the handling status for
a handling message (R77), or its owner's reply. -/
def answer (kind : Byte) (res : Except Reason Request) (s : State) : State × Reply :=
  match res with
  | .error e => if handlingKind kind then withStatus (refused e s) else refused e s
  | .ok r => deal r s

/-- A request is taken and dealt with, and its reply is built (R180, R189). -/
def serve (kind tag : Byte) (res : Except Reason Request) (s : State) : State :=
  let (s, reply) := answer kind res s
  s.setLc
    { s.lc with
      built := some ⟨if s.lc.clearing then .clearReply else .reply, replyFrame kind tag reply⟩ }

/-- The LC may take a request: the reply before it has gone out, with the notice frame that may follow
it (R180, R189). -/
def Lc.mayTake (l : Lc) : Bool :=
  l.built.isNone && !l.holdTake && !l.clearing
    && (match l.tx with | none => true | some t => t.what == .notice)

/-- A valid frame arrives while LOCKED: the silence timer restarts, and the frame is taken at once,
placed in the receive buffer, or dropped (R177, R179, R180). While the reply to CLEAR ALL goes out
frames are placed as ever, and its end drops them (R189). -/
def arrives (f : Frame) (res : Except Reason Request) (s : State) : State :=
  let s := s.setLc { s.lc with silence := some Config.silenceMs }
  if s.lc.mayTake && s.lc.rx.isEmpty then serve f.kind f.tag res s
  else if s.lc.rx.length < Config.rxTop then
    s.setLc { s.lc with rx := s.lc.rx ++ [f] }
  else s

/-- The oldest frame that waits is taken, if the LC may take one (R179, R180). -/
def takeWaiting (s : State) : State :=
  if s.lc.mayTake then
    match s.lc.rx with
    | [] => s
    | f :: rest =>
      serve f.kind f.tag (decodeRequest f.kind f.payload) (s.setLc { s.lc with rx := rest })
  else s

/-- The frame going out has ended (R180, R184, R189). -/
def transmitted (s : State) : State :=
  match s.lc.tx with
  | none => s
  | some t =>
    let s := s.setLc { s.lc with tx := none, holdTake := false }
    match t.what with
    | .clearReply => coldStart s
    | .notice => takeWaiting s
    | .reply =>
      match s.lc.nextKind with
      | some code =>
        let s := sendNotice code s
        s.setLc { s.lc with holdTake := true }
      | none => takeWaiting s

/-! ## The hunt (R176, R178) -/

/-- The next rate of the list (R176). -/
def Rate.next : Rate → Rate
  | .r9600 => .r19200 | .r19200 => .r38400 | .r38400 => .r57600 | .r57600 => .r115200
  | .r115200 => .r230400 | .r230400 => .r9600

/-- The trial rate moves on; a frame in collection is dropped (R176). -/
def nextTrial (s : State) : State :=
  s.setLc { s.lc with trial := s.lc.trial.next, collect := none, byteTimer := none }

/-- The timer between two bytes: at its end more than 50 ms have passed (R178). -/
def byteTime : Nat := Config.interByteMs + 1

/-- What the bytes after a start byte make (R178). -/
inductive Collected where
  | more
  | bad
  | frame (f : Frame)
  deriving DecidableEq, Repr

/-- The bytes collected: length, kind, tag, payload, check (R178, R200). -/
def collected (l : List Byte) : Collected :=
  match l with
  | [] => .more
  | len :: rest =>
    if Config.payloadTop < len.toNat then .bad
    else if rest.length < len.toNat + 4 then .more
    else
      let f : Frame := ⟨rest.getD 0 0, rest.getD 1 0, (rest.drop 2).take len.toNat⟩
      if fromBe ((rest.drop (len.toNat + 2)).take 2) = (crc f.covered).toNat then .frame f else .bad

/-- The link locks on a frame that passed its checks (R176, R177). -/
def lockOn (f : Frame) (s : State) : State :=
  let s := s.setLc
    { s.lc with
      locked := true, lastRate := s.lc.trial, collect := none, byteTimer := none
      silence := some Config.silenceMs }
  arrives f (decodeRequest f.kind f.payload) s

/-- A byte that may begin a frame (R176). -/
def firstByte (value : Byte) (framingError : Bool) (s : State) : State :=
  if framingError || value.toNat != Config.startValue then nextTrial s
  else s.setLc { s.lc with collect := some [], byteTimer := some byteTime }

/-- A byte received while HUNTING (R176, R178). One that comes once the byte timer has run out drops the
frame in collection and is then taken as a first byte (DESIGN CHOICE: log 16). -/
def huntTake (value : Byte) (framingError : Bool) (s : State) : State :=
  match s.lc.collect with
  | none => firstByte value framingError s
  | some l =>
    if Timer.over s.lc.byteTimer then firstByte value framingError (nextTrial s)
    else if framingError then nextTrial s
    else
      match collected (l ++ [value]) with
      | .more => s.setLc { s.lc with collect := some (l ++ [value]), byteTimer := some byteTime }
      | .bad => nextTrial s
      | .frame f => lockOn f s

/-- A byte of the line while HUNTING; while LOCKED the line is given as frames (log 9). -/
def huntByte (value : Byte) (framingError : Bool) (s : State) : State :=
  if s.lc.locked then s else huntTake value framingError s

/-- A valid frame on the line: it arrives while LOCKED, and in HUNTING its bytes are received one by
one at the trial rate (R176; log 16). -/
def frameIn (f : Frame) (res : Except Reason Request) (s : State) : State :=
  if s.lc.locked then arrives f res s else f.bytes.foldl (fun s b => huntByte b false s) s

/-- One request of the table arriving in its frame, `dt` ms after the command before. -/
def requestRow (dt : Nat) (tag : Byte) (r : Request) (s : State) : State :=
  whenOn dt s (fun s => finish (frameIn (requestFrame tag r) (.ok r) s))

/-- A frame of any kind, its payload within the limit (R178), `dt` ms after the command before. -/
def frameRow (dt : Nat) (f : Frame) (s : State) : State :=
  whenOn dt s (fun s => finish
    (if f.payload.length ≤ Config.payloadTop then frameIn f (decodeRequest f.kind f.payload) s else s))

/-- The link re-hunts (R177); a restart that CLEAR ALL has begun goes on (R189). -/
def rehunt (s : State) : State :=
  let s' := s.setLc { s.lc.stopped with notices := s.lc.notices.map Notice.requeue }
  if s.lc.clearing then coldStart s' else s'

end Sys2Proof.Machine
end

