-- ==== Sys2Proof/Machine/Events.lean ====
section
/-! DEFINITION. What the events of the rig, the line, the store and the supply do. An event that cannot
happen in the state it meets changes nothing (log 9). -/

namespace Sys2Proof.Machine

/-- An event `dt` ms after the command before. -/
def event (dt : Nat) (f : State → State) (s : State) : State := whenOn dt s (fun s => finish (f s))

/-! ## Switches (1.1) -/

/-- A stability timer's value. -/
def Sfe.timerOf (f : Sfe) (sw : Switch) : Option Nat := f.stab.getD (switchIndex sw) none

def Sfe.setTimer (sw : Switch) (t : Option Nat) (f : Sfe) : Sfe :=
  { f with stab := f.stab.set (switchIndex sw) t }

/-- A raw input changes: the timer of R1 starts, restarts or is cancelled, and the 20 ms of R2 begin
again. -/
def Sfe.rawChange (sw : Switch) (on : Bool) (f : Sfe) : Sfe :=
  if inSet f.raw sw = on then f
  else
    let f := { f with raw := putSwitch f.raw sw on }
    if inSet f.acquired sw && inSet f.debounced sw == on then f.setTimer sw none
    else f.setTimer sw (some Config.stabilityMs)

/-- The carousel table takes a change of INDEX LOCKED (R53). -/
def rrcLocked (on : Bool) (s : State) : State :=
  s.setRrc (if on then s.rrc.stepCounted else s.rrc.stepBegun)

/-- The readers of a switch take its change (R3, 1.1). The loader tests at every taken change of ARM
HOME, in start-up too (R58; DESIGN CHOICE: log 34). -/
def deliverSwitch (sw : Switch) (on : Bool) (s : State) : State :=
  match sw with
  | .headConnected => hsHeadConnected (decideDepth s)
  | .indexLocked =>
    let counted := s.rrc.stepMark
    let s := rrcLocked on s
    if on then ahaLocked counted s else s
  | .armHome => loaderTest (if on then ahaSwitchOn sw s else s)
  | _ => if on then ahaSwitchOn sw s else s

/-- A mismatch event, if one was raised, at its reader. -/
def groupEvent (raised : Bool) (f : State → State) (s : State) : State :=
  if raised then settle (f s) else s

/-- A change of a switch is taken: the groups that select it are evaluated, its readers take it, and
the groups' mismatch events follow in their order (R1, R3, R13; log 8). -/
def takeChange (sw : Switch) (on : Bool) (s : State) : State :=
  let s := s.setSfe ({ s.sfe with debounced := putSwitch s.sfe.debounced sw on }.setTimer sw none)
  let (s, r0) := evalGroupOn .g0 sw s
  let (s, r1) := evalGroupOn .g1 sw s
  let (s, r2) := evalGroupOn .g2 sw s
  let (s, r3) := evalGroupOn .g3 sw s
  let m0 := s.sfe.g0.mism
  let m1 := s.sfe.g1.mism
  let m2 := s.sfe.g2.mism
  let s := settle (deliverSwitch sw on s)
  let s := groupEvent r0 (hsGuard m0) s
  let s := groupEvent r1 (ahaGuard m1) s
  let s := groupEvent r2 (cmGuard m2) s
  groupEvent r3 raiseGroup3 s

/-- The stability timer of a switch has expired with the raw input still differing (R1). -/
def Sfe.changeDue (f : Sfe) (sw : Switch) : Bool :=
  inSet f.acquired sw && Timer.over (f.timerOf sw) && inSet f.raw sw != inSet f.debounced sw

/-- The front end at the end of acquisition (R2, R4, R5, R9). -/
def Sfe.acquisitionOver (f : Sfe) : Sfe :=
  { f with
    acquisitionEnded := true, ms := 0, stroke1 := 0, stroke2 := 0, retCount := 0, rotCount := 0
    rotTimer := none, sampleTimer := some Config.samplePeriodMs }

/-- The carousel's step at the end of acquisition: one that is counted reaches the arbiter as one of a
change taken on does, and where none is there is no change to deliver (R2, R53). INDEX LOCKED counts as
it stands debounced then, where it has changed since it was acquired (DESIGN CHOICE: log 33). -/
def acquiredStep (s : State) : State :=
  let counted := s.on .indexLocked && s.rrc.stepMark
  let s := rrcLocked (s.on .indexLocked) s
  if counted then settle (ahaLocked true s) else s

/-- The end of acquisition: the groups are evaluated, the carousel's step is taken up, and the report
goes to the TPS (R2, R53, R195). -/
def acquisitionOver (s : State) : State :=
  let s := s.setSfe s.sfe.acquisitionOver
  let (s, r0) := evalGroup .g0 s
  let (s, r1) := evalGroup .g1 s
  let (s, r2) := evalGroup .g2 s
  let (s, r3) := evalGroup .g3 s
  let s := groupEvent r0 (hsGuard s.sfe.g0.mism) s
  let s := groupEvent r1 (ahaGuard s.sfe.g1.mism) s
  let s := groupEvent r2 (cmGuard s.sfe.g2.mism) s
  let s := groupEvent r3 raiseGroup3 s
  let s := acquiredStep s
  tryEndStartUp (s.setTps { s.tps with inputsReported := true })

/-- All sixteen switches are acquired, and the end is still to be taken (R2). -/
def Sfe.acquisitionDue (f : Sfe) : Bool :=
  !f.acquisitionEnded && f.acquired == BitVec.allOnes 16

/-! ## Pulses (1.2) -/

/-- A running count after a pulse (R4). -/
def countUp (n : Nat) : Nat := (n + 1) % 2 ^ 32

/-- A stroke pulse (R4, R18). One that arrives before the end of acquisition is neither counted nor
delivered (DESIGN CHOICE: log 11). -/
def takeStroke (p : Pump) (s : State) : State :=
  let f := s.sfe
  let f :=
    match p with
    | .one => { f with stroke1 := countUp f.stroke1 }
    | .two => { f with stroke2 := countUp f.stroke2 }
  if s.sfe.acquisitionEnded then cmStroke p (s.setSfe f) else s

/-- A return meter pulse (R4); log 11 for one before the end of acquisition. -/
def takeReturn (s : State) : State :=
  if s.sfe.acquisitionEnded then
    cmReturn (s.setSfe { s.sfe with retCount := countUp s.sfe.retCount })
  else s

/-- A rotation pulse (R4, R5); log 11 for one before the end of acquisition. -/
def takeRotation (s : State) : State :=
  if s.sfe.acquisitionEnded then
    hsRotation (s.setSfe
      { s.sfe with rotCount := countUp s.sfe.rotCount, rotTimer := some Config.rotatingMs })
  else s

/-- The encoder goes to FAULT (R7). -/
def encoderFault (c : EncCause) (s : State) : State :=
  dibEncoder (some c) (s.setSfe { s.sfe with enc := .fault c })

/-- A new head height (R6). -/
def newHead (h : Nat) (s : State) : State :=
  hsHead (dibHead h (s.setSfe { s.sfe with head := some h }))

/-- A step of the head encoder (R6, R7). -/
def takeEncoder (d : EncoderStep) (s : State) : State :=
  match s.sfe.enc, s.sfe.head with
  | .good, some h =>
    match d with
    | .both => encoderFault .quadrature s
    | .up => if h < Config.headTop then newHead (h + 1) s else encoderFault .range s
    | .down => if 0 < h then newHead (h - 1) s else encoderFault .range s
  | _, _ => s

/-! ## Samples (1.3) -/

/-- A reading's value, if it is good (R9). -/
def goodValue (span p : Nat) : Option Nat :=
  if 200 ≤ p ∧ p ≤ 10200 then some ((p - 200) * span / 10000) else none

/-- An input after a sample, and whether SENSOR FAULT is raised and with which state (R10). -/
def Analogue.sample (a : Analogue) (v : Option Nat) : Analogue × Option Bool :=
  match a.st, v with
  | .acquiring, some x => (⟨.good, some x, 0⟩, none)
  | .acquiring, none => (⟨.faulted, none, 0⟩, some true)
  | .good, some x => (⟨.good, some x, 0⟩, none)
  | .good, none => (⟨.faulted, a.value, 0⟩, some true)
  | .faulted, some x => if a.goods < 2 then ({ a with goods := a.goods + 1 }, none) else (⟨.good, some x, 0⟩, some false)
  | .faulted, none => ({ a with goods := 0 }, none)

/-- SENSOR FAULT, where a sample raises it (R10, R11). -/
def sensorFault (i : AInput) (a : Analogue) (r : Option Bool) (s : State) : State :=
  match r with
  | some faulted => s.raise (.sensorFault i faulted a.value)
  | none => s

/-- PUMP PRESSURE at the builder: a faulted delivery is not added (R112). -/
def deliverPressure (s : State) : State :=
  match s.sfe.press.isFaulted, s.sfe.press.value with
  | false, some p => dibPressure p s
  | _, _ => s

/-- The three inputs are sampled and delivered (R9 to R11). -/
def takeSample (pit pressure torque : Nat) (s : State) : State :=
  let x := s.sfe.pit.sample (goodValue 4000 pit)
  let y := s.sfe.press.sample (goodValue 25000 pressure)
  let z := s.sfe.torque.sample (goodValue 30000 torque)
  let s := s.setSfe
    { s.sfe with pit := x.1, press := y.1, torque := z.1, sampleTimer := some Config.samplePeriodMs }
  let s := sensorFault .pitLevel x.1 x.2 s
  let s := sensorFault .pumpPressure y.1 y.2 s
  let s := sensorFault .headTorque z.1 z.2 s
  hsTorque (deliverPressure (cmPit s))

/-! ## Second ticks (R191) -/

/-- The clock advances (R191). -/
def clockOn (s : State) : State := s.setTps { s.tps with clock := (s.tps.clock + 1) % 2 ^ 32 }

/-- A tick is delivered: to the billing unit and the builder, the idle flow watch and the drift check,
and the window timer (R112, R145, R33, R38, R21; log 8). -/
def deliverTick (s : State) : State := windowTick (driftTick (idleFlow (dibTick (classify s))))

/-- One advance of the clock; no tick is delivered before start-up has ended (R191). -/
def takeSecond (s : State) : State :=
  let s := clockOn s
  if s.tps.phase = .running then deliverTick s
  else s.setCm { s.cm with secPulses := 0 }

/-! ## Timers -/

/-- The window in progress has come to its last tick (R21). -/
def Cm.windowDue (c : Cm) : Bool :=
  match c.win with
  | some w => w.left == 0
  | none => false

/-- The flow-check timer expires: PASSED (R32). -/
def passCheck (s : State) : State := enterIdle (recordCheck .passed s)

/-- The stall timer expires: OP HELD with cause STALL, once (R82). -/
def stallOver (s : State) : State :=
  match s.hs.op with
  | some o => (s.setHs { s.hs with stall := none }).raise (.opHeld o.op o.stage .stall none)
  | none => s.setHs { s.hs with stall := none }

/-- A grace expiry is reached (R119, R122). -/
def graceOver (s : State) : State :=
  testHead (s.setDib { s.dib with queue := takeGrace s.dib.queue })

/-! ## The store -/

/-- An erase has run: the recovery goes on, or the write in hand is programmed (R129, R142). -/
def eraseOver (sec : Nat) (s : State) : State :=
  let r := endErase sec s.rws
  if r.recovering = some .clearing then writerGoesOn (recoverStart (s.setRws r))
  else s.setRws (beginProgram r)

/-- A block program of a record has ended (R131, R134). -/
def blockOver (s : State) : State :=
  let r := blockDone s.rws
  if r.allProgrammed then
    let freed : Bool := match r.write with | some w => w.src == .queue | none => false
    let s := s.setRws (beginVerify (toVerifySlot r))
    if freed then freedPlace s else s
  else s.setRws (beginProgram r)

/-- A void has ended (R137, R142). -/
def voidOver (why : VoidFor) (s : State) : State :=
  let s := s.setRws (voidBlock s.rws)
  writerGoesOn
    (match why with
    | .failure => afterFailure s
    | .cutShort => s.setRws (placeWrite false s.rws))

/-- STORE WEAK, where a verify passes with weak rows (R136). -/
def raiseWeak (weak : Nat) (s : State) : State :=
  match s.rws.slot with
  | some r => if weak = 0 then s else s.raise (.storeWeak r.kind r.seq weak)
  | none => s

/-- A block has been read back (R135 to R137). -/
def verifyOver (cells : List CellRead) (s : State) : State :=
  let (r, step) := verifyRead cells s.rws
  let s := s.setRws r
  match step with
  | .more => s
  | .pass weak =>
    let s := raiseWeak weak s
    writerGoesOn (s.setRws (verifyPassed s.rws))
  | .fail => s.setRws (beginVoid .failure s.rws)

/-- The scan has read the store, cells as they read, and ends (R143). -/
def scanOver (cells : List (Nat × CellRead)) (s : State) : State :=
  let store := cells.foldl (fun st c => ageBlock st c.1 [c.2]) s.rws.store
  storeReady (s.setRws (scanEnd { s.rws with store := store }))

/-- The sector whose erase has run its time. -/
def Rws.eraseDue (r : Rws) : Option Nat :=
  match r.wst with
  | .erasing sec => if Timer.over r.timer then some sec else none
  | _ => none

/-- The void in progress, if the write in hand is being voided. -/
def Rws.voiding (r : Rws) : Option VoidFor := r.write.bind Write.voiding

/-- A block program has run its time. -/
def Rws.programDue (r : Rws) : Bool := r.wst == .programming && Timer.over r.timer

/-- A block read has run its time. -/
def Rws.readDue (r : Rws) : Bool := r.wst == .verifying && Timer.over r.timer

end Sys2Proof.Machine
end

