-- ==== Sys2Proof/Machine/Commands.lean ====
section
/-! DEFINITION. The meaning of each request row: the request arrives in its frame, is taken when the
link takes requests, dealt with by its owner, and answered (R179 to R181). -/

namespace Sys2Proof.Machine

/-- What a command answers. -/
abbrev Out := Host.Outcome State Fault Refusal

/-- IDENTIFY (R187). -/
def execIdentify (dt : Nat) (tag : Byte) (s : State) : Out :=
  .next (requestRow dt tag .identify s)

/-- SET PARAMETER (R188). -/
def execSetParameter (dt : Nat) (tag number : Byte) (value : BitVec 32) (s : State) : Out :=
  .next (requestRow dt tag (.setParameter number value) s)

/-- HEAD HEIGHT PRESET (R8). -/
def execHeadHeightPreset (dt : Nat) (tag : Byte) (value : BitVec 32) (s : State) : Out :=
  .next (requestRow dt tag (.setParameter 17#8 value) s)

/-- INDEX PRESET (R53). -/
def execIndexPreset (dt : Nat) (tag : Byte) (value : BitVec 32) (s : State) : Out :=
  .next (requestRow dt tag (.setParameter 21#8 value) s)

/-- DEPTH OFFSET (R108). -/
def execDepthOffset (dt : Nat) (tag : Byte) (value : BitVec 32) (s : State) : Out :=
  .next (requestRow dt tag (.setParameter 24#8 value) s)

/-- GET PARAMETER (R188). -/
def execGetParameter (dt : Nat) (tag number : Byte) (s : State) : Out :=
  .next (requestRow dt tag (.getParameter number) s)

/-- SET NOTICE MASK (R186). -/
def execSetNoticeMask (dt : Nat) (tag : Byte) (kinds : KindSet) (s : State) : Out :=
  .next (requestRow dt tag (.setNoticeMask kinds) s)

/-- ACK NOTICES (R185). -/
def execAckNotices (dt : Nat) (tag : Byte) (kinds : KindSet) (s : State) : Out :=
  .next (requestRow dt tag (.ackNotices kinds) s)

/-- CLEAR ALL (R189). -/
def execClearAll (dt : Nat) (tag : Byte) (s : State) : Out :=
  .next (requestRow dt tag .clearAll s)

/-- SET CLOCK (R155). -/
def execSetClock (dt : Nat) (tag : Byte) (second : BitVec 32) (s : State) : Out :=
  .next (requestRow dt tag (.setClock second) s)

/-- SET WATCH (R15). -/
def execSetWatch (dt : Nat) (tag : Byte) (select pattern : SwitchSet) (s : State) : Out :=
  .next (requestRow dt tag (.setWatch select pattern) s)

/-- READ SIGNALS (R16). -/
def execReadSignals (dt : Nat) (tag : Byte) (s : State) : Out :=
  .next (requestRow dt tag .readSignals s)

/-- SET PUMP (R20). -/
def execSetPump (dt : Nat) (tag pump : Byte) (displacement efficiency : BitVec 16)
    (s : State) : Out :=
  .next (requestRow dt tag (.setPump pump displacement efficiency) s)

/-- SET RETURN METER (R20). -/
def execSetReturnMeter (dt : Nat) (tag : Byte) (k : BitVec 16) (s : State) : Out :=
  .next (requestRow dt tag (.setReturnMeter k) s)

/-- DECLARE ADDITION (R23). -/
def execDeclareAddition (dt : Nat) (tag : Byte) (volume : BitVec 32) (s : State) : Out :=
  .next (requestRow dt tag (.declareAddition volume) s)

/-- READ BALANCE (R42). -/
def execReadBalance (dt : Nat) (tag part : Byte) (s : State) : Out :=
  .next (requestRow dt tag (.readBalance part) s)

/-- ACCEPT LATCH (R34). -/
def execAcceptLatch (dt : Nat) (tag latch : Byte) (s : State) : Out :=
  .next (requestRow dt tag (.acceptLatch latch) s)

/-- ENTER HOLE WATCH (R35). -/
def execEnterHoleWatch (dt : Nat) (tag : Byte) (s : State) : Out :=
  .next (requestRow dt tag .enterHoleWatch s)

/-- LEAVE HOLE WATCH (R40). -/
def execLeaveHoleWatch (dt : Nat) (tag : Byte) (s : State) : Out :=
  .next (requestRow dt tag .leaveHoleWatch s)

/-- REGISTER ROD (R45). -/
def execRegisterRod (dt : Nat) (tag : Byte) (serial : Serial) (length : BitVec 16) (sizeClass : Byte)
    (s : State) : Out :=
  .next (requestRow dt tag (.registerRod serial length sizeClass) s)

/-- RETIRE ROD (R46). -/
def execRetireRod (dt : Nat) (tag : Byte) (serial : Serial) (s : State) : Out :=
  .next (requestRow dt tag (.retireRod serial) s)

/-- LOAD SLOT (R56). -/
def execLoadSlot (dt : Nat) (tag : Byte) (serial : Serial) (slot : Byte) (s : State) : Out :=
  .next (requestRow dt tag (.loadSlot serial slot) s)

/-- UNLOAD SLOT (R57). -/
def execUnloadSlot (dt : Nat) (tag slot : Byte) (s : State) : Out :=
  .next (requestRow dt tag (.unloadSlot slot) s)

/-- PLACE ROD (R60). -/
def execPlaceRod (dt : Nat) (tag dest : Byte) (s : State) : Out :=
  .next (requestRow dt tag (.placeRod dest) s)

/-- READ TALLY (R61). -/
def execReadTally (dt : Nat) (tag view : Byte) (start : BitVec 48) (s : State) : Out :=
  .next (requestRow dt tag (.readTally view start) s)

/-- ADD ROD (R78). -/
def execAddRod (dt : Nat) (tag slot : Byte) (s : State) : Out :=
  .next (requestRow dt tag (.addRod slot) s)

/-- REMOVE ROD (R78). -/
def execRemoveRod (dt : Nat) (tag slot : Byte) (s : State) : Out :=
  .next (requestRow dt tag (.removeRod slot) s)

/-- START TRIP (R97). -/
def execStartTrip (dt : Nat) (tag direction count : Byte) (s : State) : Out :=
  .next (requestRow dt tag (.startTrip direction count) s)

/-- STOP TRIP (R99). -/
def execStopTrip (dt : Nat) (tag : Byte) (s : State) : Out :=
  .next (requestRow dt tag .stopTrip s)

/-- RESUME (R95). -/
def execResume (dt : Nat) (tag : Byte) (s : State) : Out :=
  .next (requestRow dt tag .resume s)

/-- ABORT (R96). -/
def execAbort (dt : Nat) (tag : Byte) (s : State) : Out :=
  .next (requestRow dt tag .abort s)

/-- MANUAL MOVE (R73). -/
def execManualMove (dt : Nat) (tag function direction : Byte) (jog : BitVec 16) (s : State) : Out :=
  .next (requestRow dt tag (.manualMove function direction jog) s)

/-- DIVERTER (R74). -/
def execDiverter (dt : Nat) (tag direction : Byte) (s : State) : Out :=
  .next (requestRow dt tag (.diverter direction) s)

/-- MARK INTERVAL (R117). -/
def execMarkInterval (dt : Nat) (tag : Byte) (s : State) : Out :=
  .next (requestRow dt tag .markInterval s)

/-- ANNOTATE (R121). -/
def execAnnotate (dt : Nat) (tag : Byte) (interval : BitVec 16) (lithology : Byte) (bag : BitVec 16) (remark flags : Byte)
    (s : State) : Out :=
  .next (requestRow dt tag (.annotate interval lithology bag remark flags) s)

/-- READ INTERVALS (R123). -/
def execReadIntervals (dt : Nat) (tag : Byte) (start : BitVec 16) (s : State) : Out :=
  .next (requestRow dt tag (.readIntervals start) s)

/-- READ LOG (R139). -/
def execReadLog (dt : Nat) (tag : Byte) (sequence : BitVec 32) (part : Byte) (s : State) : Out :=
  .next (requestRow dt tag (.readLog sequence part) s)

/-- WRITE TARIFF (R160). -/
def execWriteTariff (dt : Nat) (tag : Byte) (t : TariffWire) (s : State) : Out :=
  .next (requestRow dt tag (.writeTariff t) s)

/-- READ TARIFF (R161). -/
def execReadTariff (dt : Nat) (tag id part : Byte) (s : State) : Out :=
  .next (requestRow dt tag (.readTariff id part) s)

/-- OPEN JOB (R164). -/
def execOpenJob (dt : Nat) (tag : Byte) (job : BitVec 24) (tariff : Byte) (depth : BitVec 32)
    (s : State) : Out :=
  .next (requestRow dt tag (.openJob job tariff depth) s)

/-- HOLD JOB (R152). -/
def execHoldJob (dt : Nat) (tag : Byte) (s : State) : Out :=
  .next (requestRow dt tag .holdJob s)

/-- RELEASE JOB (R152). -/
def execReleaseJob (dt : Nat) (tag : Byte) (s : State) : Out :=
  .next (requestRow dt tag .releaseJob s)

/-- DECLARE BREAKDOWN (R153). -/
def execDeclareBreakdown (dt : Nat) (tag : Byte) (s : State) : Out :=
  .next (requestRow dt tag .declareBreakdown s)

/-- END BREAKDOWN (R154). -/
def execEndBreakdown (dt : Nat) (tag : Byte) (s : State) : Out :=
  .next (requestRow dt tag .endBreakdown s)

/-- ADD MATERIAL (R151). -/
def execAddMaterial (dt : Nat) (tag item : Byte) (quantity : BitVec 16) (s : State) : Out :=
  .next (requestRow dt tag (.addMaterial item quantity) s)

/-- ISSUE TICKET (R169). -/
def execIssueTicket (dt : Nat) (tag : Byte) (s : State) : Out :=
  .next (requestRow dt tag .issueTicket s)

/-- CLOSE JOB (R170). -/
def execCloseJob (dt : Nat) (tag : Byte) (s : State) : Out :=
  .next (requestRow dt tag .closeJob s)

/-- READ TICKET (R173). -/
def execReadTicket (dt : Nat) (tag : Byte) (ticket : BitVec 32) (part : Byte) (s : State) : Out :=
  .next (requestRow dt tag (.readTicket ticket part) s)

/-- COLLECT TICKET (R174). -/
def execCollectTicket (dt : Nat) (tag : Byte) (ticket : BitVec 32) (s : State) : Out :=
  .next (requestRow dt tag (.collectTicket ticket) s)

/-- READ ACCRUALS (R156). -/
def execReadAccruals (dt : Nat) (tag part : Byte) (s : State) : Out :=
  .next (requestRow dt tag (.readAccruals part) s)

/-- UNKNOWN KIND REQUEST: a frame whose kind names no request (R181, R203). -/
def execUnknownKindRequest (dt : Nat) (tag kind : Byte) (payload : List Byte) (s : State) : Out :=
  .next (frameRow dt ⟨kind, tag, payload⟩ s)

end Sys2Proof.Machine
end

