-- ==== Sys2Proof/Machine/EventRows.lean ====
section
/-! DEFINITION. The meaning of each event row: the line, the rig's signals, the timers, the store and
the supply. -/

namespace Sys2Proof.Machine

/-! ## The line -/

/-- HUNT BYTE (R176). -/
def execHuntByte (dt : Nat) (value : Byte) (framingError : Bool) (s : State) : Out :=
  .next (event dt (huntByte value framingError) s)

/-- FRAME RECEIVED: a valid frame (R178, R179). -/
def execFrameReceived (dt : Nat) (kind tag : Byte) (payload : List Byte) (s : State) : Out :=
  .next (frameRow dt ⟨kind, tag, payload⟩ s)

/-- INTER BYTE TIMEOUT: the frame in collection is dropped (R178). -/
def execInterByteTimeout (dt : Nat) (s : State) : Out :=
  .next (event dt (fun s =>
    if s.lc.collect.isSome && Timer.over s.lc.byteTimer then nextTrial s else s) s)

/-- SILENCE TIMER EXPIRY: the link re-hunts (R177). -/
def execSilenceTimerExpiry (dt : Nat) (s : State) : Out :=
  .next (event dt (fun s => if s.lc.locked && Timer.over s.lc.silence then rehunt s else s) s)

/-- TRANSMIT COMPLETE (R180). -/
def execTransmitComplete (dt : Nat) (s : State) : Out := .next (event dt transmitted s)

/-- FRAME DROPPED: a frame received while LOCKED fails its checks; it leaves no mark (R178). -/
def execFrameDropped (dt : Nat) (_cause : DropCause) (s : State) : Out := .next (event dt id s)

/-! ## The rig's signals -/

/-- SWITCH RAW CHANGE (R1, R2); the wiring moves whether the part runs or not (log 3). -/
def execSwitchRawChange (dt : Nat) (sw : Switch) (on : Bool) (s : State) : Out :=
  .next (if s.tps.phase = .off then s.setSfe { s.sfe with raw := putSwitch s.sfe.raw sw on }
    else event dt (fun s => s.setSfe (s.sfe.rawChange sw on)) s)

/-- SWITCH CHANGE TAKEN (R1). -/
def execSwitchChangeTaken (dt : Nat) (sw : Switch) (s : State) : Out :=
  .next (event dt (fun s =>
    if s.sfe.changeDue sw then takeChange sw (inSet s.sfe.raw sw) s else s) s)

/-- ACQUISITION END (R2). -/
def execAcquisitionEnd (dt : Nat) (s : State) : Out :=
  .next (event dt (fun s => if s.sfe.acquisitionDue then acquisitionOver s else s) s)

/-- STROKE PULSE (R18). -/
def execStrokePulse (dt : Nat) (pump : Pump) (s : State) : Out := .next (event dt (takeStroke pump) s)

/-- RETURN METER PULSE (R4). -/
def execReturnMeterPulse (dt : Nat) (s : State) : Out := .next (event dt takeReturn s)

/-- ROTATION PULSE (R4, R5). -/
def execRotationPulse (dt : Nat) (s : State) : Out := .next (event dt takeRotation s)

/-- HEAD ENCODER STEP (R6). -/
def execHeadEncoderStep (dt : Nat) (dir : EncoderStep) (s : State) : Out :=
  .next (event dt (takeEncoder dir) s)

/-- ROTATING INDICATION EXPIRY (R5). -/
def execRotatingIndicationExpiry (dt : Nat) (s : State) : Out :=
  .next (event dt (fun s =>
    if Timer.over s.sfe.rotTimer then s.setSfe { s.sfe with rotTimer := none } else s) s)

/-- ANALOGUE SAMPLE (R10). -/
def execAnalogueSample (dt pit pressure torque : Nat) (s : State) : Out :=
  .next (event dt (fun s =>
    if Timer.over s.sfe.sampleTimer then takeSample pit pressure torque s else s) s)

/-! ## Timers -/

/-- PUMP GAP TIMER EXPIRY (R19). -/
def execPumpGapTimerExpiry (dt : Nat) (pump : Pump) (s : State) : Out :=
  .next (event dt (fun s => if Timer.over (s.cm.pump pump).gap then cmPumpStopped pump s else s) s)

/-- SECOND TICK (R191); the battery keeps the clock counting while the part is held in reset. -/
def execSecondTick (dt : Nat) (s : State) : Out :=
  .next (if s.tps.phase = .off then clockOn s else event dt takeSecond s)

/-- WINDOW CLOSE (R22). -/
def execWindowClose (dt : Nat) (s : State) : Out :=
  .next (event dt (fun s => if s.cm.windowDue then closeWindow s else s) s)

/-- FLOW CHECK TIMER EXPIRY (R32). -/
def execFlowCheckTimerExpiry (dt : Nat) (s : State) : Out :=
  .next (event dt (fun s =>
    if s.cm.mon = .flowCheck ∧ Timer.over s.cm.fcTimer = true then passCheck s else s) s)

/-- CAPTURE TIMER EXPIRY (R36). -/
def execCaptureTimerExpiry (dt : Nat) (s : State) : Out :=
  .next (event dt (fun s =>
    if s.cm.mon = .watchEntry ∧ Timer.over s.cm.capTimer = true then endCapture s else s) s)

/-- MOTION TIMEOUT (R69). -/
def execMotionTimeout (dt : Nat) (s : State) : Out := .next (event dt ahaTimeout s)

/-- STALL TIMER EXPIRY (R82). -/
def execStallTimerExpiry (dt : Nat) (s : State) : Out :=
  .next (event dt (fun s => if Timer.over s.hs.stall then stallOver s else s) s)

/-- GRACE EXPIRY (R119). -/
def execGraceExpiry (dt : Nat) (s : State) : Out := .next (event dt graceOver s)

/-! ## The store -/

/-- ERASE COMPLETE (R129). -/
def execEraseComplete (dt : Nat) (s : State) : Out :=
  .next (event dt (fun s => match s.rws.eraseDue with | some sec => eraseOver sec s | none => s) s)

/-- BLOCK PROGRAM COMPLETE (R134). -/
def execBlockProgramComplete (dt : Nat) (s : State) : Out :=
  .next (event dt (fun s =>
    if s.rws.programDue && s.rws.voiding.isNone then blockOver s else s) s)

/-- VOID COMPLETE (R137). -/
def execVoidComplete (dt : Nat) (s : State) : Out :=
  .next (event dt (fun s =>
    match s.rws.voiding with
    | some why => if s.rws.programDue then voidOver why s else s
    | none => s) s)

/-- VERIFY BLOCK READ (R135). -/
def execVerifyBlockRead (dt : Nat) (cells : List CellRead) (s : State) : Out :=
  .next (event dt (fun s => if s.rws.readDue then verifyOver cells s else s) s)

/-- COLD START SCAN END (R143). -/
def execColdStartScanEnd (dt : Nat) (cells : List (Nat × CellRead)) (s : State) : Out :=
  .next (event dt (fun s => if s.rws.scanning then scanOver cells s else s) s)

/-! ## The supply -/

/-- POWER FAIL WARNING (R192). -/
def execPowerFailWarning (dt : Nat) (s : State) : Out := .next (whenOn dt s powerFails)

/-- POWER UP (R193); it comes while the part is held in reset. -/
def execPowerUp (_dt secondsOff : Nat) (batteryGood : Bool) (s : State) : Out :=
  .next (if s.tps.phase = .off then powerReturns secondsOff batteryGood s else s)

end Sys2Proof.Machine
end

