-- ==== Sys2Proof/Machine/Dispatch.lean ====
section
/-! DEFINITION. One arm per command: each calls its meaning. -/

namespace Sys2Proof.Machine

def exec (i : Instr) (s : State) : Host.Outcome State Fault Refusal :=
  match i with
  | .identify dt tag => Sys2Proof.Machine.execIdentify dt tag s
  | .setParameter dt tag number value => Sys2Proof.Machine.execSetParameter dt tag number value s
  | .headHeightPreset dt tag value => Sys2Proof.Machine.execHeadHeightPreset dt tag value s
  | .indexPreset dt tag value => Sys2Proof.Machine.execIndexPreset dt tag value s
  | .depthOffset dt tag value => Sys2Proof.Machine.execDepthOffset dt tag value s
  | .getParameter dt tag number => Sys2Proof.Machine.execGetParameter dt tag number s
  | .setNoticeMask dt tag kinds => Sys2Proof.Machine.execSetNoticeMask dt tag kinds s
  | .ackNotices dt tag kinds => Sys2Proof.Machine.execAckNotices dt tag kinds s
  | .clearAll dt tag => Sys2Proof.Machine.execClearAll dt tag s
  | .setClock dt tag second => Sys2Proof.Machine.execSetClock dt tag second s
  | .setWatch dt tag select pattern => Sys2Proof.Machine.execSetWatch dt tag select pattern s
  | .readSignals dt tag => Sys2Proof.Machine.execReadSignals dt tag s
  | .setPump dt tag pump displacement efficiency => Sys2Proof.Machine.execSetPump dt tag pump displacement efficiency s
  | .setReturnMeter dt tag k => Sys2Proof.Machine.execSetReturnMeter dt tag k s
  | .declareAddition dt tag volume => Sys2Proof.Machine.execDeclareAddition dt tag volume s
  | .readBalance dt tag part => Sys2Proof.Machine.execReadBalance dt tag part s
  | .acceptLatch dt tag latch => Sys2Proof.Machine.execAcceptLatch dt tag latch s
  | .enterHoleWatch dt tag => Sys2Proof.Machine.execEnterHoleWatch dt tag s
  | .leaveHoleWatch dt tag => Sys2Proof.Machine.execLeaveHoleWatch dt tag s
  | .registerRod dt tag serial length sizeClass => Sys2Proof.Machine.execRegisterRod dt tag serial length sizeClass s
  | .retireRod dt tag serial => Sys2Proof.Machine.execRetireRod dt tag serial s
  | .loadSlot dt tag serial slot => Sys2Proof.Machine.execLoadSlot dt tag serial slot s
  | .unloadSlot dt tag slot => Sys2Proof.Machine.execUnloadSlot dt tag slot s
  | .placeRod dt tag dest => Sys2Proof.Machine.execPlaceRod dt tag dest s
  | .readTally dt tag view start => Sys2Proof.Machine.execReadTally dt tag view start s
  | .addRod dt tag slot => Sys2Proof.Machine.execAddRod dt tag slot s
  | .removeRod dt tag slot => Sys2Proof.Machine.execRemoveRod dt tag slot s
  | .startTrip dt tag direction count => Sys2Proof.Machine.execStartTrip dt tag direction count s
  | .stopTrip dt tag => Sys2Proof.Machine.execStopTrip dt tag s
  | .resume dt tag => Sys2Proof.Machine.execResume dt tag s
  | .abort dt tag => Sys2Proof.Machine.execAbort dt tag s
  | .manualMove dt tag function direction jog => Sys2Proof.Machine.execManualMove dt tag function direction jog s
  | .diverter dt tag direction => Sys2Proof.Machine.execDiverter dt tag direction s
  | .markInterval dt tag => Sys2Proof.Machine.execMarkInterval dt tag s
  | .annotate dt tag interval lithology bag remark flags => Sys2Proof.Machine.execAnnotate dt tag interval lithology bag remark flags s
  | .readIntervals dt tag start => Sys2Proof.Machine.execReadIntervals dt tag start s
  | .readLog dt tag sequence part => Sys2Proof.Machine.execReadLog dt tag sequence part s
  | .writeTariff dt tag t => Sys2Proof.Machine.execWriteTariff dt tag t s
  | .readTariff dt tag id part => Sys2Proof.Machine.execReadTariff dt tag id part s
  | .openJob dt tag job tariff depth => Sys2Proof.Machine.execOpenJob dt tag job tariff depth s
  | .holdJob dt tag => Sys2Proof.Machine.execHoldJob dt tag s
  | .releaseJob dt tag => Sys2Proof.Machine.execReleaseJob dt tag s
  | .declareBreakdown dt tag => Sys2Proof.Machine.execDeclareBreakdown dt tag s
  | .endBreakdown dt tag => Sys2Proof.Machine.execEndBreakdown dt tag s
  | .addMaterial dt tag item quantity => Sys2Proof.Machine.execAddMaterial dt tag item quantity s
  | .issueTicket dt tag => Sys2Proof.Machine.execIssueTicket dt tag s
  | .closeJob dt tag => Sys2Proof.Machine.execCloseJob dt tag s
  | .readTicket dt tag ticket part => Sys2Proof.Machine.execReadTicket dt tag ticket part s
  | .collectTicket dt tag ticket => Sys2Proof.Machine.execCollectTicket dt tag ticket s
  | .readAccruals dt tag part => Sys2Proof.Machine.execReadAccruals dt tag part s
  | .unknownKindRequest dt tag kind payload => Sys2Proof.Machine.execUnknownKindRequest dt tag kind payload s
  | .huntByte dt value framingError => Sys2Proof.Machine.execHuntByte dt value framingError s
  | .frameReceived dt kind tag payload => Sys2Proof.Machine.execFrameReceived dt kind tag payload s
  | .interByteTimeout dt => Sys2Proof.Machine.execInterByteTimeout dt s
  | .silenceTimerExpiry dt => Sys2Proof.Machine.execSilenceTimerExpiry dt s
  | .transmitComplete dt => Sys2Proof.Machine.execTransmitComplete dt s
  | .switchRawChange dt sw on => Sys2Proof.Machine.execSwitchRawChange dt sw on s
  | .switchChangeTaken dt sw => Sys2Proof.Machine.execSwitchChangeTaken dt sw s
  | .acquisitionEnd dt => Sys2Proof.Machine.execAcquisitionEnd dt s
  | .strokePulse dt pump => Sys2Proof.Machine.execStrokePulse dt pump s
  | .returnMeterPulse dt => Sys2Proof.Machine.execReturnMeterPulse dt s
  | .rotationPulse dt => Sys2Proof.Machine.execRotationPulse dt s
  | .headEncoderStep dt dir => Sys2Proof.Machine.execHeadEncoderStep dt dir s
  | .rotatingIndicationExpiry dt => Sys2Proof.Machine.execRotatingIndicationExpiry dt s
  | .analogueSample dt pit pressure torque => Sys2Proof.Machine.execAnalogueSample dt pit pressure torque s
  | .pumpGapTimerExpiry dt pump => Sys2Proof.Machine.execPumpGapTimerExpiry dt pump s
  | .secondTick dt => Sys2Proof.Machine.execSecondTick dt s
  | .windowClose dt => Sys2Proof.Machine.execWindowClose dt s
  | .flowCheckTimerExpiry dt => Sys2Proof.Machine.execFlowCheckTimerExpiry dt s
  | .captureTimerExpiry dt => Sys2Proof.Machine.execCaptureTimerExpiry dt s
  | .motionTimeout dt => Sys2Proof.Machine.execMotionTimeout dt s
  | .stallTimerExpiry dt => Sys2Proof.Machine.execStallTimerExpiry dt s
  | .graceExpiry dt => Sys2Proof.Machine.execGraceExpiry dt s
  | .eraseComplete dt => Sys2Proof.Machine.execEraseComplete dt s
  | .blockProgramComplete dt => Sys2Proof.Machine.execBlockProgramComplete dt s
  | .voidComplete dt => Sys2Proof.Machine.execVoidComplete dt s
  | .verifyBlockRead dt cells => Sys2Proof.Machine.execVerifyBlockRead dt cells s
  | .coldStartScanEnd dt cells => Sys2Proof.Machine.execColdStartScanEnd dt cells s
  | .powerFailWarning dt => Sys2Proof.Machine.execPowerFailWarning dt s
  | .powerUp dt secondsOff batteryGood => Sys2Proof.Machine.execPowerUp dt secondsOff batteryGood s
  | .frameDropped dt cause => Sys2Proof.Machine.execFrameDropped dt cause s

end Sys2Proof.Machine
end

