-- ==== Sys2Proof/WellFormed.lean ====
section
/-! DEFINITION. Which commands are well formed: a payload that fits a frame (R178), a tariff whose
counts agree with its lists (R203), readings within the converter's limit (R9), cells within a block
(R125). -/

namespace Sys2Proof.Machine

/-- A payload has at most 240 bytes (R178). -/
def payloadWf (p : List Byte) : Bool := p.length ≤ Config.payloadTop

/-- A tariff has ten rates, as many bands as its count and as many items as its set (R202, R203), and
fits a frame. -/
def tariffWf (t : TariffWire) : Bool :=
  t.rates.length == 10 && t.bands.length == t.bandCount.toNat && t.items.length == itemCount t.itemSet
    && tariffLength t.bandCount.toNat t.itemSet ≤ Config.payloadTop

/-- A reading is within the converter's limit, 0 to 11,000 (R9). -/
def readingWf (p : Nat) : Bool := p ≤ 11000

/-- A cell stands in a block of 64 bytes (R125). -/
def cellWf (c : CellRead) : Bool := c.offset < 64

/-- A request is well formed. -/
def requestWf : Request → Bool
  | .writeTariff t => tariffWf t
  | .identify => true
  | .setParameter _ _ => true
  | .getParameter _ => true
  | .setNoticeMask _ => true
  | .ackNotices _ => true
  | .clearAll => true
  | .setClock _ => true
  | .setWatch _ _ => true
  | .readSignals => true
  | .setPump _ _ _ => true
  | .setReturnMeter _ => true
  | .declareAddition _ => true
  | .readBalance _ => true
  | .acceptLatch _ => true
  | .enterHoleWatch => true
  | .leaveHoleWatch => true
  | .registerRod _ _ _ => true
  | .retireRod _ => true
  | .loadSlot _ _ => true
  | .unloadSlot _ => true
  | .placeRod _ => true
  | .readTally _ _ => true
  | .addRod _ => true
  | .removeRod _ => true
  | .startTrip _ _ => true
  | .stopTrip => true
  | .resume => true
  | .abort => true
  | .manualMove _ _ _ => true
  | .diverter _ => true
  | .markInterval => true
  | .annotate _ _ _ _ _ => true
  | .readIntervals _ => true
  | .readLog _ _ => true
  | .readTariff _ _ => true
  | .openJob _ _ _ => true
  | .holdJob => true
  | .releaseJob => true
  | .declareBreakdown => true
  | .endBreakdown => true
  | .addMaterial _ _ => true
  | .issueTicket => true
  | .closeJob => true
  | .readTicket _ _ => true
  | .collectTicket _ => true
  | .readAccruals _ => true

/-- A frame kind that names no request (R203). -/
def unknownKind (kind : Byte) : Bool := kind.toNat < 0x01 || 0x2F < kind.toNat

end Sys2Proof.Machine

namespace Sys2Proof

open Machine in
/-- A command is well formed. -/
def Instr.wellFormed : Instr → Bool
  | .writeTariff _ _ t => tariffWf t
  | .unknownKindRequest _ _ kind payload => unknownKind kind && payloadWf payload
  | .frameReceived _ _ _ payload => payloadWf payload
  | .analogueSample _ pit pressure torque => readingWf pit && readingWf pressure && readingWf torque
  | .verifyBlockRead _ cells => cells.all cellWf
  | .coldStartScanEnd _ cells => cells.all (fun c => c.1 < Config.storeBlocks && cellWf c.2)
  | .powerUp _ secondsOff _ => secondsOff ≤ Config.top32
  | .identify _ _ => true
  | .setParameter _ _ _ _ => true
  | .headHeightPreset _ _ _ => true
  | .indexPreset _ _ _ => true
  | .depthOffset _ _ _ => true
  | .getParameter _ _ _ => true
  | .setNoticeMask _ _ _ => true
  | .ackNotices _ _ _ => true
  | .clearAll _ _ => true
  | .setClock _ _ _ => true
  | .setWatch _ _ _ _ => true
  | .readSignals _ _ => true
  | .setPump _ _ _ _ _ => true
  | .setReturnMeter _ _ _ => true
  | .declareAddition _ _ _ => true
  | .readBalance _ _ _ => true
  | .acceptLatch _ _ _ => true
  | .enterHoleWatch _ _ => true
  | .leaveHoleWatch _ _ => true
  | .registerRod _ _ _ _ _ => true
  | .retireRod _ _ _ => true
  | .loadSlot _ _ _ _ => true
  | .unloadSlot _ _ _ => true
  | .placeRod _ _ _ => true
  | .readTally _ _ _ _ => true
  | .addRod _ _ _ => true
  | .removeRod _ _ _ => true
  | .startTrip _ _ _ _ => true
  | .stopTrip _ _ => true
  | .resume _ _ => true
  | .abort _ _ => true
  | .manualMove _ _ _ _ _ => true
  | .diverter _ _ _ => true
  | .markInterval _ _ => true
  | .annotate _ _ _ _ _ _ _ => true
  | .readIntervals _ _ _ => true
  | .readLog _ _ _ _ => true
  | .readTariff _ _ _ _ => true
  | .openJob _ _ _ _ _ => true
  | .holdJob _ _ => true
  | .releaseJob _ _ => true
  | .declareBreakdown _ _ => true
  | .endBreakdown _ _ => true
  | .addMaterial _ _ _ _ => true
  | .issueTicket _ _ => true
  | .closeJob _ _ => true
  | .readTicket _ _ _ _ => true
  | .collectTicket _ _ _ => true
  | .readAccruals _ _ _ => true
  | .huntByte _ _ _ => true
  | .interByteTimeout _ => true
  | .silenceTimerExpiry _ => true
  | .transmitComplete _ => true
  | .switchRawChange _ _ _ => true
  | .switchChangeTaken _ _ => true
  | .acquisitionEnd _ => true
  | .strokePulse _ _ => true
  | .returnMeterPulse _ => true
  | .rotationPulse _ => true
  | .headEncoderStep _ _ => true
  | .rotatingIndicationExpiry _ => true
  | .pumpGapTimerExpiry _ _ => true
  | .secondTick _ => true
  | .windowClose _ => true
  | .flowCheckTimerExpiry _ => true
  | .captureTimerExpiry _ => true
  | .motionTimeout _ => true
  | .stallTimerExpiry _ => true
  | .graceExpiry _ => true
  | .eraseComplete _ => true
  | .blockProgramComplete _ => true
  | .voidComplete _ => true
  | .powerFailWarning _ => true
  | .frameDropped _ _ => true

end Sys2Proof
end

