-- ==== Sys2Proof/Safety.lean ====
section
/-! DEFINITION. What statements speak of: the conditions in which a request is dealt with at once and
what its reply leaves at the transmitter, and the invariants that every step keeps. -/

namespace Sys2Proof.Machine

/-! ## The link at rest -/

/-- The part is not held in reset and no block has handed anything on that is still to be taken
(R192; log 7). -/
abbrev State.awake (s : State) : Prop := s.tps.phase ≠ .off ∧ s.reports = []

/-- The link is LOCKED, nothing is going out, nothing is received or built, and no restart has begun
(R179, R180, R189). -/
abbrev Lc.free (l : Lc) : Prop :=
  l.locked = true ∧ l.tx = none ∧ l.built = none ∧ l.rx = [] ∧ l.holdTake = false ∧ l.clearing = false

/-- A request that arrives is taken at once, whether start-up has ended or not (R179, R180). -/
abbrev State.listens (s : State) : Prop := s.awake ∧ s.lc.free

/-- A request that arrives is taken at once, and start-up has ended (R195). -/
abbrev State.ready (s : State) : Prop := s.tps.phase = .running ∧ s.reports = [] ∧ s.lc.free

/-- The state in which a request is dealt with, its frame having arrived `dt` ms after the command
before: the silence timer has restarted (R177). -/
def State.heard (dt : Nat) (s : State) : State :=
  (s.elapse dt).setLc { (s.elapse dt).lc with silence := some Config.silenceMs }

/-- The reply to a request begins to go out (R180, R200). -/
def State.answering (tag : Byte) (r : Request) (reply : Reply) (s : State) : State :=
  s.setLc { s.lc with tx := some ⟨.reply, replyFrame (encodeRequest r).1 tag reply⟩ }

/-- A request has been dealt with and its reply is built: what the blocks have handed on is taken, and the
reply begins to go out (R180; log 7). -/
def State.replying (tag : Byte) (r : Request) (reply : Reply) (s : State) : State :=
  finish (s.setLc
    { s.lc with built := some ⟨.reply, replyFrame (encodeRequest r).1 tag reply⟩ })

/-! ## The store -/

/-- The store is in its one form: addresses rising and below 8,192, blocks of 64 bytes, none of them
erased (R125). -/
def State.storeOk (s : State) : Prop := storeWf s.rws.store = true

/-! ## The arbiter -/

/-- Requests in chain order, no two of one client (R63). -/
def chainOrdered : List Req → Bool
  | [] => true
  | r :: rest => rest.all (fun q => r.client.rank < q.client.rank) && chainOrdered rest

/-- No two requests of the two lists are of one client (R63). -/
def clientsApart (l m : List Req) : Bool := l.all (fun r => m.all (fun q => r.client != q.client))

/-- The driven valve is the holder's function in the holder's direction, and an index motion that waits
for INDEX LOCKED drives none (R66, R71). -/
def Aha.drivesHolder (a : Aha) : Bool :=
  match a.valve, a.holder with
  | none, _ => true
  | some v, some r => v == (r.fn, r.dir) && (r.fn != .index || r.lockWait.isNone)
  | some _, none => false

/-- The arbiter's order: the holder ranks above every other request that stands, the stack and the
waiting set are in chain order, no client has two requests, no request stands without a holder, and
the one valve driven is the holder's (R63, R65, R66, R68). -/
def Aha.ok (a : Aha) : Bool :=
  chainOrdered (a.holder.toList ++ a.stack) && chainOrdered (a.holder.toList ++ a.waiting)
    && clientsApart a.stack a.waiting
    && (a.holder.isSome || (a.stack.isEmpty && a.waiting.isEmpty))
    && a.drivesHolder

/-- The arbiter is in its order. -/
def State.ahaOk (s : State) : Prop := s.aha.ok = true

/-! ## The tables -/

/-- Every table has its number of places: sixteen stability timers, 27 parameters, 160 registry
entries, 40 slots, 32 sectors, four tariffs, 24 notice kinds (R2, R44, R52, R125, R159, R183, 12.2). -/
def State.tablesOk (s : State) : Prop :=
  s.sfe.stab.length = 16 ∧ s.params.length = 27 ∧ s.rrc.registry.length = Config.registrySize
    ∧ s.rrc.slots.length = Config.slotCount ∧ s.rws.sectors.length = Config.sectorCount
    ∧ s.bu.tariffs.length = 4 ∧ s.lc.notices.length = 24

end Sys2Proof.Machine

namespace Sys2Proof

/-! ## Commands by what sends them -/

/-- The event rows of the rig, the timers and the store; the line's rows and the supply's are not
among them. -/
def Instr.ofRig : Instr → Bool
  | .switchRawChange _ _ _ => true
  | .switchChangeTaken _ _ => true
  | .acquisitionEnd _ => true
  | .strokePulse _ _ => true
  | .returnMeterPulse _ => true
  | .rotationPulse _ => true
  | .headEncoderStep _ _ => true
  | .rotatingIndicationExpiry _ => true
  | .analogueSample _ _ _ _ => true
  | .pumpGapTimerExpiry _ _ => true
  | .secondTick _ => true
  | .windowClose _ => true
  | .flowCheckTimerExpiry _ => true
  | .captureTimerExpiry _ => true
  | .motionTimeout _ => true
  | .stallTimerExpiry _ => true
  | .graceExpiry _ => true
  | .eraseComplete _ => true
  | .blockProgramComplete _ => true
  | .voidComplete _ => true
  | .verifyBlockRead _ _ => true
  | .coldStartScanEnd _ _ => true
  | .identify _ _ => false
  | .setParameter _ _ _ _ => false
  | .headHeightPreset _ _ _ => false
  | .indexPreset _ _ _ => false
  | .depthOffset _ _ _ => false
  | .getParameter _ _ _ => false
  | .setNoticeMask _ _ _ => false
  | .ackNotices _ _ _ => false
  | .clearAll _ _ => false
  | .setClock _ _ _ => false
  | .setWatch _ _ _ _ => false
  | .readSignals _ _ => false
  | .setPump _ _ _ _ _ => false
  | .setReturnMeter _ _ _ => false
  | .declareAddition _ _ _ => false
  | .readBalance _ _ _ => false
  | .acceptLatch _ _ _ => false
  | .enterHoleWatch _ _ => false
  | .leaveHoleWatch _ _ => false
  | .registerRod _ _ _ _ _ => false
  | .retireRod _ _ _ => false
  | .loadSlot _ _ _ _ => false
  | .unloadSlot _ _ _ => false
  | .placeRod _ _ _ => false
  | .readTally _ _ _ _ => false
  | .addRod _ _ _ => false
  | .removeRod _ _ _ => false
  | .startTrip _ _ _ _ => false
  | .stopTrip _ _ => false
  | .resume _ _ => false
  | .abort _ _ => false
  | .manualMove _ _ _ _ _ => false
  | .diverter _ _ _ => false
  | .markInterval _ _ => false
  | .annotate _ _ _ _ _ _ _ => false
  | .readIntervals _ _ _ => false
  | .readLog _ _ _ _ => false
  | .writeTariff _ _ _ => false
  | .readTariff _ _ _ _ => false
  | .openJob _ _ _ _ _ => false
  | .holdJob _ _ => false
  | .releaseJob _ _ => false
  | .declareBreakdown _ _ => false
  | .endBreakdown _ _ => false
  | .addMaterial _ _ _ _ => false
  | .issueTicket _ _ => false
  | .closeJob _ _ => false
  | .readTicket _ _ _ _ => false
  | .collectTicket _ _ _ => false
  | .readAccruals _ _ _ => false
  | .unknownKindRequest _ _ _ _ => false
  | .huntByte _ _ _ => false
  | .frameReceived _ _ _ _ => false
  | .interByteTimeout _ => false
  | .silenceTimerExpiry _ => false
  | .transmitComplete _ => false
  | .powerFailWarning _ => false
  | .powerUp _ _ _ => false
  | .frameDropped _ _ => false

/-- The request that a request row carries, with its time and tag; the event rows and the row of an
unknown kind carry none (R202). -/
def Instr.request : Instr → Option (Nat × Byte × Request)
  | .identify dt tag => some (dt, tag, .identify)
  | .setParameter dt tag n v => some (dt, tag, .setParameter n v)
  | .headHeightPreset dt tag v => some (dt, tag, .setParameter 17#8 v)
  | .indexPreset dt tag v => some (dt, tag, .setParameter 21#8 v)
  | .depthOffset dt tag v => some (dt, tag, .setParameter 24#8 v)
  | .getParameter dt tag n => some (dt, tag, .getParameter n)
  | .setNoticeMask dt tag k => some (dt, tag, .setNoticeMask k)
  | .ackNotices dt tag k => some (dt, tag, .ackNotices k)
  | .clearAll dt tag => some (dt, tag, .clearAll)
  | .setClock dt tag t => some (dt, tag, .setClock t)
  | .setWatch dt tag a b => some (dt, tag, .setWatch a b)
  | .readSignals dt tag => some (dt, tag, .readSignals)
  | .setPump dt tag p d e => some (dt, tag, .setPump p d e)
  | .setReturnMeter dt tag k => some (dt, tag, .setReturnMeter k)
  | .declareAddition dt tag v => some (dt, tag, .declareAddition v)
  | .readBalance dt tag p => some (dt, tag, .readBalance p)
  | .acceptLatch dt tag l => some (dt, tag, .acceptLatch l)
  | .enterHoleWatch dt tag => some (dt, tag, .enterHoleWatch)
  | .leaveHoleWatch dt tag => some (dt, tag, .leaveHoleWatch)
  | .registerRod dt tag x l c => some (dt, tag, .registerRod x l c)
  | .retireRod dt tag x => some (dt, tag, .retireRod x)
  | .loadSlot dt tag x n => some (dt, tag, .loadSlot x n)
  | .unloadSlot dt tag n => some (dt, tag, .unloadSlot n)
  | .placeRod dt tag d => some (dt, tag, .placeRod d)
  | .readTally dt tag v x => some (dt, tag, .readTally v x)
  | .addRod dt tag n => some (dt, tag, .addRod n)
  | .removeRod dt tag n => some (dt, tag, .removeRod n)
  | .startTrip dt tag d n => some (dt, tag, .startTrip d n)
  | .stopTrip dt tag => some (dt, tag, .stopTrip)
  | .resume dt tag => some (dt, tag, .resume)
  | .abort dt tag => some (dt, tag, .abort)
  | .manualMove dt tag f d j => some (dt, tag, .manualMove f d j)
  | .diverter dt tag d => some (dt, tag, .diverter d)
  | .markInterval dt tag => some (dt, tag, .markInterval)
  | .annotate dt tag i l b r f => some (dt, tag, .annotate i l b r f)
  | .readIntervals dt tag i => some (dt, tag, .readIntervals i)
  | .readLog dt tag q p => some (dt, tag, .readLog q p)
  | .writeTariff dt tag t => some (dt, tag, .writeTariff t)
  | .readTariff dt tag i p => some (dt, tag, .readTariff i p)
  | .openJob dt tag j t d => some (dt, tag, .openJob j t d)
  | .holdJob dt tag => some (dt, tag, .holdJob)
  | .releaseJob dt tag => some (dt, tag, .releaseJob)
  | .declareBreakdown dt tag => some (dt, tag, .declareBreakdown)
  | .endBreakdown dt tag => some (dt, tag, .endBreakdown)
  | .addMaterial dt tag i q => some (dt, tag, .addMaterial i q)
  | .issueTicket dt tag => some (dt, tag, .issueTicket)
  | .closeJob dt tag => some (dt, tag, .closeJob)
  | .readTicket dt tag t p => some (dt, tag, .readTicket t p)
  | .collectTicket dt tag t => some (dt, tag, .collectTicket t)
  | .readAccruals dt tag p => some (dt, tag, .readAccruals p)
  | .unknownKindRequest _ _ _ _ => none
  | .huntByte _ _ _ => none
  | .frameReceived _ _ _ _ => none
  | .interByteTimeout _ => none
  | .silenceTimerExpiry _ => none
  | .transmitComplete _ => none
  | .switchRawChange _ _ _ => none
  | .switchChangeTaken _ _ => none
  | .acquisitionEnd _ => none
  | .strokePulse _ _ => none
  | .returnMeterPulse _ => none
  | .rotationPulse _ => none
  | .headEncoderStep _ _ => none
  | .rotatingIndicationExpiry _ => none
  | .analogueSample _ _ _ _ => none
  | .pumpGapTimerExpiry _ _ => none
  | .secondTick _ => none
  | .windowClose _ => none
  | .flowCheckTimerExpiry _ => none
  | .captureTimerExpiry _ => none
  | .motionTimeout _ => none
  | .stallTimerExpiry _ => none
  | .graceExpiry _ => none
  | .eraseComplete _ => none
  | .blockProgramComplete _ => none
  | .voidComplete _ => none
  | .verifyBlockRead _ _ => none
  | .coldStartScanEnd _ _ => none
  | .powerFailWarning _ => none
  | .powerUp _ _ _ => none
  | .frameDropped _ _ => none

end Sys2Proof
end

