-- ==== Sys2Proof/Certificates/Slice0/Obligations.lean ====
section
/-! DEFINITION. The statements for the provers, taken from the numbered rules of the spec family by family. A
statement about a request row says what the row does in a state in which the link is free and the part takes
requests (`State.ready`, or `State.listens` where start-up does not matter), as an equation for the whole next
state: what the equation does not name is unchanged. -/

section

open Sys2Proof Sys2Proof.Machine

/-! ## The step and the queue -/

/-- One step is the meaning of the command at the front of the queue on the state with the queue's rest,
and an empty queue idles (log 1). -/
def Obligations.StepRunsTheFrontCommand : Prop :=
  (∀ (s : State) (c : Instr) (rest : List Instr),
    step (s.setPending (c :: rest)) = exec c (s.setPending rest))
  ∧ ∀ s : State, s.pending = [] → step s = .next s

/-- No command adds to the queue or takes from it (log 1). -/
def Obligations.NoCommandTouchesTheQueue : Prop :=
  ∀ (c : Instr) (s t : State), exec c s = .next t → t.pending = s.pending

/-- Reset is the beginning of a cold start: every block stands at the cold value that its restart table
gives (R17, R43, R62, R75, R103, R124, R144, R158, R175, R190, R194, R199). The store of State.reset is
erased, so that its head, sectors and numbers are those of an erased store, which is the model's (log
5); the scan that finds them is still to end. No stability timer runs: the 20 ms in their places are the
acquisition's. -/
def Obligations.ResetIsTheColdState : Prop :=
  let s := State.reset
  (s.sfe.acquired = 0 ∧ s.sfe.debounced = 0 ∧ s.sfe.stab = List.replicate 16 (some 20)
    ∧ s.sfe.acquisitionEnded = false ∧ s.sfe.ms = 0 ∧ s.sfe.stroke1 = 0 ∧ s.sfe.stroke2 = 0
    ∧ s.sfe.retCount = 0 ∧ s.sfe.rotCount = 0 ∧ s.sfe.rotTimer = none ∧ s.sfe.head = none
    ∧ s.sfe.enc = .fault .unreferenced ∧ s.sfe.pit = ⟨.acquiring, none, 0⟩
    ∧ s.sfe.press = ⟨.acquiring, none, 0⟩ ∧ s.sfe.torque = ⟨.acquiring, none, 0⟩
    ∧ s.sfe.g0 = ⟨0, 0, 0, false⟩ ∧ s.sfe.g1 = ⟨0, 0, 0, false⟩ ∧ s.sfe.g2 = ⟨0, 0, 0, false⟩
    ∧ s.sfe.g3 = ⟨0, 0, 0, false⟩)
  ∧ (s.cm.mon = .idle ∧ s.cm.pump1.st = .stopped ∧ s.cm.pump1.interval = none
    ∧ s.cm.pump1.gap = none ∧ s.cm.pump1.remainder = 0 ∧ s.cm.pump2.st = .stopped
    ∧ s.cm.pump2.interval = none ∧ s.cm.pump2.gap = none ∧ s.cm.pump2.remainder = 0
    ∧ s.cm.win = none ∧ s.cm.lastWin = none ∧ s.cm.ring = [] ∧ s.cm.sum = 0 ∧ s.cm.cond = .normal
    ∧ s.cm.lossSus = 0 ∧ s.cm.gainSus = 0 ∧ s.cm.lossClr = 0 ∧ s.cm.gainClr = 0 ∧ s.cm.disagree = 0
    ∧ s.cm.lossLatch = none ∧ s.cm.gainLatch = none ∧ s.cm.divert = .noDivert
    ∧ s.cm.fcResult = .noCheck ∧ s.cm.cum = 0 ∧ s.cm.span = [] ∧ s.cm.capTimer = none
    ∧ s.cm.ref = none ∧ s.cm.hiStep = 0 ∧ s.cm.loStep = 0)
  ∧ (s.rrc.registry = List.replicate 160 none ∧ s.rrc.retired = [] ∧ s.rrc.string = []
    ∧ s.rrc.arm = none ∧ s.rrc.slots = List.replicate 40 .empty ∧ s.rrc.index = 0
    ∧ s.rrc.stepDir = .ascending ∧ s.rrc.stepMark = false ∧ s.rrc.hold = false
    ∧ s.rrc.loader = none ∧ s.stringLength = 3000)
  ∧ (s.aha = ⟨none, [], [], none⟩)
  ∧ (s.hs = ⟨.idle, none, none, none, false, none⟩)
  ∧ (s.dib.dstate = .fault ∧ s.dib.depth = 0 ∧ s.dib.unset = true ∧ s.dib.encFaulted = true
    ∧ s.dib.offset = 0 ∧ s.dib.hwm = 0 ∧ s.dib.jobStart = 0 ∧ s.dib.jobNo = none
    ∧ s.dib.nextInterval = 1 ∧ s.dib.cumLast = 0 ∧ s.dib.openIv = none ∧ s.dib.queue = []
    ∧ s.dib.headLast = none ∧ s.dib.lenLast = 3000)
  ∧ (s.rws.wst = .idle ∧ s.rws.queue = [] ∧ s.rws.slot = none ∧ s.rws.write = none
    ∧ s.rws.scanning = true ∧ s.rws.exhausted = false ∧ s.rws.store = [] ∧ s.rws.head = 0
    ∧ s.rws.sectors = List.replicate 32 .erased ∧ s.rws.nextSeq = 1 ∧ s.rws.earliest = none
    ∧ s.rws.readable = [])
  ∧ (s.bu.category = .standby ∧ s.bu.breakdown = none
    ∧ s.bu.totals = ⟨[], List.replicate 10 0, List.replicate 16 0⟩
    ∧ s.bu.since = ⟨[], List.replicate 10 0, List.replicate 16 0⟩ ∧ s.bu.sinceFrom = none
    ∧ s.bu.openSecs = 0 ∧ s.bu.lossCat = none ∧ s.bu.tariffs = List.replicate 4 none
    ∧ s.bu.jobSt = .noJob ∧ s.bu.job = none ∧ s.bu.finalWaiting = false ∧ s.bu.tickets = []
    ∧ s.bu.nextTicket = 1 ∧ s.bu.outbox = [])
  ∧ (s.lc.locked = false ∧ s.lc.trial = .r9600 ∧ s.lc.lastRate = .r9600 ∧ s.lc.silence = none
    ∧ s.lc.rx = [] ∧ s.lc.collect = none ∧ s.lc.tx = none ∧ s.lc.built = none
    ∧ s.lc.notices = List.replicate 24 ⟨.clear, false, none, 0⟩ ∧ s.lc.mask = BitVec.allOnes 24)
  ∧ (s.tps.phase = .startUp ∧ s.tps.clock = 0 ∧ s.tps.lossSec = none ∧ s.tps.recoveryPending = false
    ∧ s.tps.valid = false ∧ s.tps.startKind = .cold ∧ s.tps.startEnd = none
    ∧ s.tps.heldRecovery = none)
  ∧ s.params = [5, 12, 40000, 20000, 3, 30, 20000, 30000, 60000, 8000, 950, 8000, 950, 1000, 50, 0, 0,
    3000, 400, 60000, 0, 8000, 6, 0, 1000, 9800, 600]

/-! ## Invariants that every step keeps -/

/-- At reset the store is in its form, the arbiter in its order, and the tables have their sizes. -/
def Obligations.ResetMeetsTheInvariants : Prop :=
  State.reset.storeOk ∧ State.reset.ahaOk ∧ State.reset.tablesOk

/-- Every step keeps the store in its one form, whatever the state it begins in (R125), and keeps every
table's number of places (R2, R44, R52, R159, R183). -/
def Obligations.EveryStepKeepsTheStoreFormAndTheTables : Prop :=
  (∀ s t : State, s.storeOk → step s = .next t → t.storeOk)
  ∧ (∀ s t : State, s.tablesOk → step s = .next t → t.tablesOk)

/-- Every step keeps the arbiter's order: at most one client holds the grant, no client has two
requests, the holder ranks above all that wait, no request stands without a holder, and the driven valve
is the holder's (R63, R65, R66, R68). -/
def Obligations.EveryStepKeepsTheArbiterOrder : Prop :=
  ∀ s t : State, s.ahaOk → step s = .next t → t.ahaOk

/-- No event of the rig, the timers or the store changes a parameter, a tariff or the notice mask (R160,
R186, R188). -/
def Obligations.RigEventsLeaveSettingsAlone : Prop :=
  ∀ (c : Instr) (s t : State), c.ofRig = true → exec c s = .next t →
    t.params = s.params ∧ t.bu.tariffs = s.bu.tariffs ∧ t.lc.mask = s.lc.mask

/-! ## The link -/

/-- Reading the kind and payload of a well-formed request gives that request back, every field at every
value (R201, R202, R203). -/
def Obligations.RequestsReadBackFromTheirFrames : Prop :=
  ∀ r : Request, requestWf r = true →
    decodeRequest (encodeRequest r).1 (encodeRequest r).2 = .ok r

/-- A kind and payload that are read as a request are that request's kind and payload, and a payload
that fits a frame gives a well-formed request: no bit of a frame is dropped (R202, R203). A kind outside
01H to 2FH is refused UNKNOWN KIND whatever its payload, and a kind within it is either read or refused
BAD LENGTH. Such a frame is answered REFUSED UNKNOWN KIND with the frame kind 80H and its tag, or
REFUSED BAD LENGTH with its own kind, which for the kinds of the handling messages carries the handling
status (R77), and changes nothing else (R180, R181, R203). -/
def Obligations.FramesAreReadOrRefused : Prop :=
  (∀ (kind : Byte) (p : List Byte) (r : Request), decodeRequest kind p = .ok r →
     encodeRequest r = (kind, p) ∧ (p.length ≤ 240 → requestWf r = true))
  ∧ (∀ (kind : Byte) (p : List Byte),
       (unknownKind kind = true → decodeRequest kind p = .error .unknownKind)
       ∧ (unknownKind kind = false →
         (∃ r, decodeRequest kind p = .ok r) ∨ decodeRequest kind p = .error .badLength))
  ∧ (∀ (dt : Nat) (tag kind : Byte) (p : List Byte) (s : State), s.listens → p.length ≤ 240 →
       (unknownKind kind = true →
         exec (.unknownKindRequest dt tag kind p) s =
           .next ((s.heard dt).setLc { (s.heard dt).lc with tx := some ⟨.reply, ⟨0x80#8, tag, [3, 1]⟩⟩ })
         ∧ exec (.frameReceived dt kind tag p) s = exec (.unknownKindRequest dt tag kind p) s)
       ∧ (decodeRequest kind p = .error .badLength →
         exec (.frameReceived dt kind tag p) s =
           .next ((s.heard dt).setLc
             { (s.heard dt).lc with
               tx := some ⟨.reply, ⟨kind + 0x80#8, tag, [3, 2]
                 ++ (if 0x17 ≤ kind.toNat ∧ kind.toNat ≤ 0x1C then handlingStatus (s.heard dt)
                   else [])⟩⟩ })))

/-- A request row is the reception of its frame: in every state the command and the valid frame that
carries it do the same (R176, R179; log 16). A request that arrives while one is in hand waits if fewer
than two wait, and is dropped without a reply if two do, also while the reply to CLEAR ALL goes out;
either way the silence timer restarts (R177, R179, R180). One is in hand while a reply goes out, while
one is built, and through the notice frame that follows a reply (R180). While any other notice frame
goes out, a request is taken at once: its owner deals with it, its reply carries its kind, 80H more, and
its tag, and is built, and the notice frame goes on: the reply waits for it to end (R180, R200; O12 says
that it then goes out). -/
def Obligations.RequestsArriveAsTheirFrames : Prop :=
  (∀ (c : Instr) (dt : Nat) (tag : Byte) (r : Request) (s : State),
     c.request = some (dt, tag, r) → requestWf r = true →
     exec c s = exec (.frameReceived dt (encodeRequest r).1 tag (encodeRequest r).2) s)
  ∧ ∀ (c : Instr) (dt : Nat) (tag : Byte) (r : Request) (s : State) (x : TxFrame),
       c.request = some (dt, tag, r) → s.awake → s.lc.locked = true → s.lc.tx = some x →
       let h := s.heard dt
       let inHand := x.what ≠ .notice ∨ s.lc.holdTake = true ∨ s.lc.built ≠ none ∨ s.lc.clearing = true
       (inHand ∨ s.lc.rx ≠ [] → s.lc.rx.length < 2 → exec c s =
         .next (h.setLc { h.lc with rx := s.lc.rx ++ [requestFrame tag r] }))
       ∧ (2 ≤ s.lc.rx.length → exec c s = .next h)
       ∧ (¬inHand → s.lc.rx = [] →
         let u := (deal r h).1
         let built : TxFrame := ⟨if u.lc.clearing then .clearReply else .reply,
           ⟨(encodeRequest r).1 + 0x80#8, tag, (deal r h).2.payload.take 240⟩⟩
         let t := settle (u.setLc { u.lc with built := some built })
         exec c s = .next t ∧ t.lc.tx = some x ∧ t.lc.built = some built)

/-- Until start-up ends, every request is refused BUSY and changes nothing, but for the twelve that R195
lists: IDENTIFY, GET PARAMETER, SET NOTICE MASK, ACK NOTICES, and the reads of the signals, the balance,
the tally, the intervals, the log, a tariff, a ticket and the accruals. The refusal of one of the six
handling messages carries the handling status (R77, R195). -/
def Obligations.StartUpRefusesBusy : Prop :=
  ∀ (c : Instr) (dt : Nat) (tag : Byte) (r : Request) (s : State),
    c.request = some (dt, tag, r) → s.tps.phase = .startUp → s.reports = [] → s.lc.free →
    (match r with
      | .identify | .getParameter _ | .setNoticeMask _ | .ackNotices _ | .readSignals | .readBalance _
      | .readTally _ _ | .readIntervals _ | .readLog _ _ | .readTariff _ _ | .readTicket _ _
      | .readAccruals _ => False
      | _ => True) →
    exec c s = .next ((s.heard dt).answering tag r
      (.refuse .busy (match r with
        | .addRod _ | .removeRod _ | .startTrip _ _ | .stopTrip | .resume | .abort =>
          handlingStatus (s.heard dt)
        | _ => [])))

/-- The frame going out has ended. The reply to CLEAR ALL is followed by the cold start, in which
everything takes its value of reset but the store, the wiring and the commands that wait (R189, R194;
log 44); another reply by one notice frame if a kind is eligible (R180, R184); with none eligible, or
after a notice frame, by the taking of the oldest frame that waits, and by silence where none does and
no reply is built (R179, R180). A reply that was built while a notice frame went out waits for that
frame to end and then goes out, whatever waits or is eligible (R180); with no reply built and nothing
waiting, notice frames follow one another until no kind is eligible (R184). The kind that a notice frame
is sent for is the one with the lowest code among those that are PENDING and whose mask is enabled, and
the frame carries its code, its count and its detail with tag 0 (R184). -/
def Obligations.AfterAFrameTheNextGoesOut : Prop :=
  (∀ (dt : Nat) (s : State) (x : TxFrame), s.awake → s.lc.locked = true → s.lc.tx = some x →
     let h := s.elapse dt
     (x.what = .clearReply → exec (.transmitComplete dt) s = .next
       { State.reset with
         sfe := .reset s.sfe.raw
         rws := { Rws.reset with store := s.rws.store, halfErased := s.rws.halfErased }
         pending := s.pending })
     ∧ (x.what = .reply → s.lc.built = none → ∀ code, s.lc.nextKind = some code →
       exec (.transmitComplete dt) s = .next (h.setLc { h.lc with
         tx := some ⟨.notice, noticeFrame code (s.lc.notice code)⟩
         notices := s.lc.notices.modify (code - 1) (fun n => { n with st := .sent, count := 0 })
         holdTake := true }))
     ∧ (x.what ≠ .clearReply → (x.what = .reply → s.lc.nextKind = none) → s.lc.built = none →
       s.lc.clearing = false → ∀ f rest, s.lc.rx = f :: rest →
       exec (.transmitComplete dt) s =
         .next (finish (serve f.kind f.tag (decodeRequest f.kind f.payload)
           (h.setLc { h.lc with tx := none, holdTake := false, rx := rest }))))
     ∧ (x.what ≠ .clearReply → s.lc.nextKind = none → s.lc.built = none → s.lc.rx = [] →
       exec (.transmitComplete dt) s = .next (h.setLc { h.lc with tx := none, holdTake := false }))
     ∧ (x.what ≠ .clearReply → (x.what = .reply → s.lc.nextKind = none) → ∀ b, s.lc.built = some b →
       exec (.transmitComplete dt) s =
         .next (h.setLc { h.lc with tx := some b, built := none, holdTake := false }))
     ∧ (x.what = .notice → s.lc.built = none → s.lc.rx = [] → ∀ code, s.lc.nextKind = some code →
       exec (.transmitComplete dt) s = .next (h.setLc { h.lc with
         tx := some ⟨.notice, noticeFrame code (s.lc.notice code)⟩
         notices := s.lc.notices.modify (code - 1) (fun n => { n with st := .sent, count := 0 })
         holdTake := false })))
  ∧ (∀ (l : Lc) (code : Nat),
      let eligible := fun k : Nat => (l.notices.getD (k - 1) .reset).st = .waiting
        ∧ l.mask.getLsbD (k - 1) = true
      (l.nextKind = some code ↔ 1 ≤ code ∧ code ≤ 24 ∧ eligible code
        ∧ ∀ k, 1 ≤ k → k < code → ¬eligible k)
      ∧ (l.nextKind = none ↔ ∀ k, 1 ≤ k → k ≤ 24 → ¬eligible k))
  ∧ ∀ (code : Nat) (n : Notice) (d : Detail), n.detail = some d →
      noticeFrame code n = ⟨0xF0#8, 0#8, be 1 code ++ be 1 n.count ++ d.bytes⟩

/-- A byte in HUNTING: a byte with a framing error, or one that is not the start value, moves the trial
rate on; the start value begins a frame; the bytes after it are collected; a frame that passes its
checks locks the link at the trial rate and arrives; one that fails them moves the trial rate on (R176,
R178). The bytes collected are the length, the kind, the tag, the payload and the check: a length above
240 fails at once, fewer bytes than it calls for are waited for, and the frame stands if its last two
bytes are the check worked over the rest, by the polynomial 1021H from FFFFH, each byte from its most
significant bit down (R178, R200). The 51 ms of the byte timer are the model's (log 2), and so is that a
byte that comes once it has run out first drops the frame and is then taken as any first byte (log 16). -/
def Obligations.HuntingTakesBytes : Prop :=
  (∀ (dt : Nat) (v : Byte) (fe : Bool) (s : State), s.awake → s.lc.locked = false →
     let h := s.elapse dt
     let c := exec (.huntByte dt v fe) s
     let moved := h.setLc { h.lc with trial := s.lc.trial.next, collect := none, byteTimer := none }
     (s.lc.collect = none → fe = true ∨ v ≠ 0xA5#8 → c = .next moved)
     ∧ (s.lc.collect = none → fe = false → v = 0xA5#8 →
       c = .next (h.setLc { h.lc with collect := some [], byteTimer := some 51 }))
     ∧ (∀ l, s.lc.collect = some l → Timer.over (Timer.elapse dt s.lc.byteTimer) = false →
       (fe = true → c = .next moved)
       ∧ (fe = false →
         (collected (l ++ [v]) = .more →
           c = .next (h.setLc { h.lc with collect := some (l ++ [v]), byteTimer := some 51 }))
         ∧ (collected (l ++ [v]) = .bad → c = .next moved)
         ∧ ∀ f, collected (l ++ [v]) = .frame f →
           c = .next (finish (arrives f (decodeRequest f.kind f.payload) (h.setLc { h.lc with
             locked := true, lastRate := s.lc.trial, collect := none, byteTimer := none
             silence := some 30000 })))))
     ∧ (s.lc.collect.isSome = true → Timer.over (Timer.elapse dt s.lc.byteTimer) = true →
       (fe = true ∨ v ≠ 0xA5#8 → c = .next (h.setLc
         { h.lc with trial := s.lc.trial.next.next, collect := none, byteTimer := none }))
       ∧ (fe = false → v = 0xA5#8 → c = .next (h.setLc
         { h.lc with trial := s.lc.trial.next, collect := some [], byteTimer := some 51 }))))
  ∧ (∀ (len : Byte) (rest : List Byte),
      collected [] = .more
      ∧ (240 < len.toNat → collected (len :: rest) = .bad)
      ∧ (len.toNat ≤ 240 → rest.length < len.toNat + 4 → collected (len :: rest) = .more)
      ∧ ∀ (kind tag c0 c1 : Byte) (payload : List Byte), payload.length = len.toNat →
        len.toNat ≤ 240 → rest = kind :: tag :: (payload ++ [c0, c1]) →
        let sound := c0.toNat * 256 + c1.toNat = (crc (len :: kind :: tag :: payload)).toNat
        (sound → collected (len :: rest) = .frame ⟨kind, tag, payload⟩)
        ∧ (¬sound → collected (len :: rest) = .bad))
  ∧ ∀ (l : List Byte) (b : Byte),
      let bit := fun x : BitVec 16 => if x.msb then (x <<< 1) ^^^ 0x1021#16 else x <<< 1
      crc [] = 0xFFFF#16
      ∧ crc (l ++ [b]) =
        bit (bit (bit (bit (bit (bit (bit (bit (crc l ^^^ (b.setWidth 16 <<< 8)))))))))

/-- A frame in collection whose next byte has not come for more than 50 ms is dropped and the trial rate
moves on (R176, R178); after 30 s of silence the link re-hunts from the last locked rate, with every
SENT kind PENDING again (R177); a dropped frame leaves no mark, and with nothing going out the
transmitter takes what waits, as after any command (R178, R180, R184): on a link that is LOCKED, the
reply that is built, or else a notice frame for the eligible kind with the lowest code, which becomes
SENT with count 0 (R180, R184; O12 spells that kind and the frame). A timer's row acts once its time has
run out (log 2), and a FRAME_DROPPED in HUNTING does nothing (log 16): both are the model's. -/
def Obligations.LineTimersAndDroppedFrames : Prop :=
  ∀ (dt : Nat) (s : State), s.awake →
    let h := s.elapse dt
    (∀ k, s.lc.locked = false → s.lc.collect.isSome = true → s.lc.byteTimer = some k → k ≤ dt →
      exec (.interByteTimeout dt) s =
        .next (h.setLc { h.lc with trial := s.lc.trial.next, collect := none, byteTimer := none }))
    ∧ (∀ k, s.lc.locked = true → s.lc.clearing = false → s.lc.silence = some k → k ≤ dt →
      exec (.silenceTimerExpiry dt) s = .next (h.setLc
        { h.lc with
          locked := false, trial := s.lc.lastRate, silence := none, collect := none, byteTimer := none
          rx := [], tx := none, built := none, holdTake := false, clearing := false
          notices := s.lc.notices.map (fun n =>
            { n with st := (if n.st = .sent then .waiting else n.st), again := false }) }))
    ∧ (∀ cause, exec (.frameDropped dt cause) s = .next (lcService h)
      ∧ (s.lc.locked = false ∨ s.lc.tx.isSome = true → exec (.frameDropped dt cause) s = .next h))
    ∧ ∀ u : State,
      (u.lc.locked = false ∨ u.lc.tx ≠ none → lcService u = u)
      ∧ (u.lc.locked = true → u.lc.tx = none →
        (∀ b, u.lc.built = some b →
          lcService u = u.setLc { u.lc with tx := some b, built := none })
        ∧ (u.lc.built = none → u.lc.nextKind = none → lcService u = u)
        ∧ ∀ code, u.lc.built = none → u.lc.nextKind = some code → lcService u = u.setLc
          { u.lc with
            tx := some ⟨.notice, noticeFrame code (u.lc.notice code)⟩
            notices := u.lc.notices.modify (code - 1) (fun n => { n with st := .sent, count := 0 }) })

/-! ## Messages that read -/

/-- IDENTIFY, GET PARAMETER, READ SIGNALS, READ BALANCE and READ TALLY are answered DONE, start-up over
or not, with the figures as they stand, and change nothing; a number of no parameter and a part above 1
are refused RANGE, and READ TALLY is DONE exactly for a serial in use, an entry number below 160, a
position from 1 to 128 and a slot below 40, and refused RANGE for a serial with a character other than A
to Z and 0 to 9, UNKNOWN ROD for another that no rod has (R16, R42, R61, R182, R187, R188, R201). That
all six bytes of a starting point are read as the number is the model's (log 30), as is that the
serial's range is tested before it is looked up (log 41), and the layout of the replies where R200
leaves it open (log 10). -/
def Obligations.ReadsOfTheRigAnswerDone : Prop :=
  ∀ (dt : Nat) (tag : Byte) (s : State), s.listens →
    let h := s.heard dt
    exec (.identify dt tag) s = .next (h.answering tag .identify (.ok (identifyFields h)))
    ∧ (∀ n, exec (.getParameter dt tag n) s = .next (h.answering tag (.getParameter n)
        (match paramRange n.toNat with
          | some r => .ok (beInt 4 (if n = 21 then s.rrc.index
              else if n = 24 then s.dib.offset else s.param n.toNat)
              ++ beInt 4 r.low ++ beInt 4 r.high ++ beInt 4 r.dflt)
          | none => .refuse .range)))
    ∧ exec (.readSignals dt tag) s =
        .next (h.answering tag .readSignals (.ok (signalsFields h.sfe)))
    ∧ (∀ p, exec (.readBalance dt tag p) s = .next (h.answering tag (.readBalance p)
        (if p = 0 then .ok (balancePart0 h) else if p = 1 then .ok (balancePart1 h)
          else .refuse .range)))
    ∧ (∀ view x, exec (.readTally dt tag view x) s =
        .next (h.answering tag (.readTally view x) (readTally view x h)))
    ∧ (∀ x, (serialValid x = false → readTally 1 x h = .refuse .range)
      ∧ (serialValid x = true → s.rrc.find x = none → readTally 1 x h = .refuse .unknownRod)
      ∧ ((readTally 1 x h).status = .done ↔
        (serialValid x = true ∧ (s.rrc.find x).isSome = true))
      ∧ ((readTally 2 x h).status = .done ↔ x.toNat < 160)
      ∧ ((readTally 3 x h).status = .done ↔ 1 ≤ x.toNat ∧ x.toNat ≤ 128)
      ∧ ((readTally 4 x h).status = .done ↔ x.toNat < 40))

/-- READ INTERVALS, READ LOG, READ TARIFF, READ TICKET and READ ACCRUALS are answered DONE, start-up
over or not, and change nothing; an interval number 0 or a part the message does not have is refused
RANGE, an EMPTY tariff place NOT FOUND, and READ LOG BUSY while the scan runs; READ LOG and READ TICKET
are DONE exactly where what is named has the part that is named (R123, R139, R156, R161, R173, R201).
The layout of the replies is the model's reading where R200 leaves it open (log 10). -/
def Obligations.ReadsOfTheRecordsAnswerDone : Prop :=
  ∀ (dt : Nat) (tag : Byte) (s : State), s.listens →
    let h := s.heard dt
    (∀ i, exec (.readIntervals dt tag i) s = .next (h.answering tag (.readIntervals i)
        (if i = 0 then .refuse .range else .ok (intervalsFields i.toNat h))))
    ∧ (∀ q p, exec (.readLog dt tag q p) s =
        .next (h.answering tag (.readLog q p) (logReply q.toNat p.toNat h.rws)))
    ∧ (∀ q p : Nat, ((logReply q p h.rws).status = .done ↔ s.rws.scanning = false ∧ p ≤ 2
        ∧ ∀ x, s.rws.findLog q = some x → p < partCount x.blocks)
      ∧ (s.rws.scanning = true → logReply q p h.rws = .refuse .busy))
    ∧ (∀ i p, exec (.readTariff dt tag i p) s = .next (h.answering tag (.readTariff i p)
        (if i.toNat < 1 ∨ 4 < i.toNat ∨ 1 < p.toNat then .refuse .range
          else match s.bu.tariffs.getD (i.toNat - 1) none with
            | none => .refuse .notFound
            | some t => .ok (tariffFields p.toNat t (s.bu.inUse i.toNat)))))
    ∧ (∀ n p, exec (.readTicket dt tag n p) s =
        .next (h.answering tag (.readTicket n p) (readTicket n.toNat p.toNat s.bu)))
    ∧ (∀ n p : Nat, ((readTicket n p s.bu).status = .done ↔
        ∃ k, s.bu.findTicket n = some k ∧ p < max 1 ((k.lines.length + 11) / 12)))
    ∧ (∀ p, exec (.readAccruals dt tag p) s = .next (h.answering tag (.readAccruals p)
        (if 1 < p.toNat then .refuse .range else .ok (accrualsFields p.toNat h))))

/-! ## Parameters and service messages -/

/-- SET PARAMETER stores a value clamped to its parameter's range and answers DONE with it where it was
in range and CLAMPED where it was not, and changes nothing else; a number of no parameter is refused
RANGE (R182, R188). The bottom assembly length also delivers the string length (R51); a wear limit that
falls tests every entry against both limits, and every rod that meets one and is neither RETIRED nor
worn is worn, with ROD WORN in ascending entry number (R50); and the three presets do what their own
rows do (R8, R53, R108). A string length that has changed gives a LIVE depth anew (R51, R105). -/
def Obligations.SetParameterStoresAndActs : Prop :=
  (∀ (dt : Nat) (tag n : Byte) (v : BitVec 32) (s : State), s.ready →
     let h := s.heard dt
     (paramRange n.toNat = none →
       exec (.setParameter dt tag n v) s =
         .next (h.answering tag (.setParameter n v) (.refuse .range)))
     ∧ ∀ r, paramRange n.toNat = some r → n ∉ [17#8, 18#8, 19#8, 20#8, 21#8, 24#8] →
       let x := max r.low (min r.high v.toInt)
       exec (.setParameter dt tag n v) s =
         .next ((h.setParams (s.params.set (n.toNat - 1) x)).answering tag (.setParameter n v)
           (if r.low ≤ v.toInt ∧ v.toInt ≤ r.high then .ok (beInt 4 v.toInt) else .clamp (beInt 4 x))))
  ∧ (∀ (dt : Nat) (tag : Byte) (v : BitVec 32) (s : State),
       (exec (.setParameter dt tag 17 v) s = exec (.headHeightPreset dt tag v) s
         ∧ exec (.setParameter dt tag 21 v) s = exec (.indexPreset dt tag v) s
         ∧ exec (.setParameter dt tag 24 v) s = exec (.depthOffset dt tag v) s)
       ∧ (s.ready →
         let h := s.heard dt;
         let rep := fun x => if v.toInt = x then Reply.ok (beInt 4 x) else .clamp (beInt 4 x);
         (let x := max 500 (min 30000 v.toInt);
           exec (.setParameter dt tag 18 v) s =
             .next ((deliverLength (h.setParams (s.params.set 17 x))).answering tag (.setParameter 18 v)
               (rep x)))
         ∧ (let x := max 50 (min 2000 v.toInt);
           exec (.setParameter dt tag 19 v) s =
             .next ((if x < s.param 19 then testAllLimits (h.setParams (s.params.set 18 x))
                 else h.setParams (s.params.set 18 x)).answering tag (.setParameter 19 v) (rep x)))
         ∧ (let x := max 1000 (min 200000 v.toInt);
           exec (.setParameter dt tag 20 v) s =
             .next ((if x < s.param 20 then testAllLimits (h.setParams (s.params.set 19 x))
                 else h.setParams (s.params.set 19 x)).answering tag (.setParameter 20 v) (rep x)))))
  ∧ (∀ u : State, u.rrc.registry.length = 160 →
       let wears := fun x : Rod => x.loc ≠ .retired ∧ x.worn = false
         ∧ (u.pConnLimit ≤ x.conns ∨ u.pDistLimitM * 1000 ≤ x.dist)
       testAllLimits u = ((u.rrc.registry.filterMap id).filter (fun x => decide (wears x))).foldl
         (fun v x => v.raise (.rodWorn x.serial .limitChange x.conns x.dist))
         (u.setRrc { u.rrc with
           registry := u.rrc.registry.map
             (Option.map (fun x => if wears x then { x with worn := true } else x)) }))
  ∧ ∀ u : State,
      let n := u.pBottomAssembly + (u.rrc.string.map
        (fun p => match u.rrc.rod p.1 with | some x => x.length | none => 0)).sum
      (n = u.dib.lenLast → deliverLength u = u)
      ∧ (n ≠ u.dib.lenLast → deliverLength u = recompute (u.setDib { u.dib with lenLast := n }))

/-- The three presets. HEAD HEIGHT PRESET is refused STATE with the encoder GOOD, and otherwise stores
the clamped height, makes it the head height and the encoder GOOD, and delivers both: the builder's
fault mark is cleared, it takes the height, decides the depth state afresh, and DEPTH FAULT tells
CLEARED with the depth and the state, and LIFT is tested (R8, R107; O45 spells the decision). INDEX
PRESET is refused STATE unless INDEX LOCKED is on and no index motion stands, and otherwise sets the
index position and clears the step mark (R53). DEPTH OFFSET is refused STATE with a job in progress, and
otherwise replaces the offset, from which a LIVE depth is worked out again (R108). -/
def Obligations.PresetsActOrAreRefusedState : Prop :=
  ∀ (dt : Nat) (tag : Byte) (v : BitVec 32) (s : State), s.ready →
    let h := s.heard dt
    let rep := fun x => if v.toInt = x then Reply.ok (beInt 4 x) else .clamp (beInt 4 x);
    (let x := max 0 (min 7500 v.toInt)
      let p := h.setParams (s.params.set 16 x)
      let w := decideDepth ((p.setSfe { p.sfe with head := some x.toNat, enc := .good }).setDib
        { s.dib with encFaulted := false, headLast := some x.toNat })
      let u := settle (hsHead (w.raise (.depthFault none w.dib.depth w.dib.dstate)))
      exec (.headHeightPreset dt tag v) s = .next
        (if s.sfe.enc = .good then h.answering tag (.setParameter 17 v) (.refuse .state)
          else finish (u.setLc { u.lc with
            built := some ⟨.reply, replyFrame 2 tag (rep x)⟩ })))
    ∧ (let x := max 0 (min 39 v.toInt)
      exec (.indexPreset dt tag v) s = .next
        (if h.on .indexLocked = true ∧ ∀ q ∈ h.aha.standing, q.fn ≠ .index then
          (h.setRrc { s.rrc with index := x.toNat, stepMark := false }).answering tag
            (.setParameter 21 v) (rep x)
        else h.answering tag (.setParameter 21 v) (.refuse .state)))
    ∧ (let x := max (-100000) (min 100000 v.toInt)
      exec (.depthOffset dt tag v) s = .next
        (if s.bu.jobSt = .noJob then
          (recompute (h.setDib { s.dib with offset := x })).answering tag (.setParameter 24 v) (rep x)
        else h.answering tag (.setParameter 24 v) (.refuse .state)))

/-- SET PUMP stores a pump's displacement and efficiency and SET RETURN METER the volume per pulse, each
clamped; any value clamped answers CLAMPED with the values stored; a pump other than 1 and 2 is refused
RANGE. Nothing else changes: the window in progress keeps its own values (R20). -/
def Obligations.PumpAndMeterFiguresAreStored : Prop :=
  ∀ (dt : Nat) (tag : Byte) (s : State), s.ready →
    let h := s.heard dt
    (∀ pump d e, pump ≠ 1 → pump ≠ 2 → exec (.setPump dt tag pump d e) s =
      .next (h.answering tag (.setPump pump d e) (.refuse .range)))
    ∧ (∀ (d e : BitVec 16) (pump : Byte) (i : Nat), (pump = 1 ∧ i = 9) ∨ (pump = 2 ∧ i = 11) →
      let x : Int := max 500 (min 30000 d.toNat)
      let y : Int := max 700 (min 1000 e.toNat)
      exec (.setPump dt tag pump d e) s =
        .next ((h.setParams ((s.params.set i x).set (i + 1) y)).answering tag (.setPump pump d e)
          (if 500 ≤ d.toNat ∧ d.toNat ≤ 30000 ∧ 700 ≤ e.toNat ∧ e.toNat ≤ 1000 then .ok
            else .clamp (beInt 2 x ++ beInt 2 y))))
    ∧ ∀ k : BitVec 16,
      let x : Int := max 10 (min 5000 k.toNat)
      exec (.setReturnMeter dt tag k) s =
        .next ((h.setParams (s.params.set 13 x)).answering tag (.setReturnMeter k)
          (if 10 ≤ k.toNat ∧ k.toNat ≤ 5000 then .ok else .clamp (beInt 2 x)))

/-- SET NOTICE MASK replaces the whole mask and answers it. ACK NOTICES makes a named SENT kind CLEAR,
or PENDING again where its again mark is set, leaves every other kind alone, clears group 3's flag where
it names GROUP MISMATCH, and answers the whole set. Both are taken whether start-up is over or not
(R185, R186). An event raised makes its kind's detail the latest and its count one more, held at 255: a
CLEAR kind becomes PENDING with count 1, a PENDING one stays so, and a SENT one takes its again mark;
the mask does not matter, and nothing else changes (R183). -/
def Obligations.MaskAndAcknowledgement : Prop :=
  (∀ (dt : Nat) (tag : Byte) (k : KindSet) (s : State), s.listens →
     let h := s.heard dt
     exec (.setNoticeMask dt tag k) s =
       .next ((h.setLc { h.lc with mask := k }).answering tag (.setNoticeMask k) (.ok (be 3 k.toNat)))
     ∧ (let acked := h.setLc { h.lc with notices := s.lc.notices.mapIdx (fun i n =>
           if k.getLsbD i = true ∧ n.st = .sent then
             (if n.again then { n with st := .waiting, again := false } else ⟨.clear, false, none, 0⟩)
           else n) }
       let t := if k.getLsbD 6 then
         acked.setSfe { h.sfe with g3 := { s.sfe.g3 with flag := false } } else acked
       exec (.ackNotices dt tag k) s =
         .next (t.answering tag (.ackNotices k) (.ok (noticeSetBytes acked.lc)))))
  ∧ ∀ (u : State) (d : Detail), u.lc.notices.length = 24 →
      let n := u.lc.notices.getD (d.kind - 1) .reset
      let after : Notice := match n.st with
        | .clear => ⟨.waiting, false, some d, 1⟩
        | .waiting => ⟨.waiting, n.again, some d, min (n.count + 1) 255⟩
        | .sent => ⟨.sent, true, some d, min (n.count + 1) 255⟩
      1 ≤ d.kind ∧ d.kind ≤ 24
      ∧ u.raise d = u.setLc { u.lc with notices := u.lc.notices.set (d.kind - 1) after }

/-- CLEAR ALL is refused JOB OPEN with a job in progress, then STATE with the sequencer not IDLE, then
BUSY while anything waits to be written, unless the sequence numbers are exhausted; otherwise its reply
DONE begins and no further request is taken; the cold start that follows the reply drops what waits
(R189). SET CLOCK is refused STATE with a job in progress; otherwise the clock reads the second, and
each grace expiry that lay ahead of the clock moves to lie as far ahead of the second (R155). Which
grace expiries move is the model's reading (log 26). -/
def Obligations.ClearAllAndSetClock : Prop :=
  ∀ (dt : Nat) (tag : Byte) (s : State), s.ready →
    let h := s.heard dt
    let written := s.rws.exhausted = true ∨ (s.rws.queue = [] ∧ s.rws.slot = none ∧ s.bu.outbox = []
      ∧ s.dib.queue = [] ∧ s.tps.heldRecovery = none)
    (s.bu.jobSt ≠ .noJob → exec (.clearAll dt tag) s =
      .next (h.answering tag .clearAll (.refuse .jobOpen)))
    ∧ (s.bu.jobSt = .noJob → s.hs.seq ≠ .idle → exec (.clearAll dt tag) s =
      .next (h.answering tag .clearAll (.refuse .state)))
    ∧ (s.bu.jobSt = .noJob → s.hs.seq = .idle → ¬written → exec (.clearAll dt tag) s =
      .next (h.answering tag .clearAll (.refuse .busy)))
    ∧ (s.bu.jobSt = .noJob → s.hs.seq = .idle → written → exec (.clearAll dt tag) s =
      .next (h.setLc { h.lc with
        clearing := true, tx := some ⟨.clearReply, ⟨0x86#8, tag, [0, 0]⟩⟩ }))
    ∧ ∀ q : BitVec 32,
      (s.bu.jobSt ≠ .noJob → exec (.setClock dt tag q) s =
        .next (h.answering tag (.setClock q) (.refuse .state)))
      ∧ (s.bu.jobSt = .noJob → exec (.setClock dt tag q) s =
        .next (((h.setTps { s.tps with clock := q.toNat }).setDib
          { s.dib with
            queue := s.dib.queue.map (fun e => match e.st with
              | .sampleDue d g =>
                if s.tps.clock < g ∧ e.graceOver = false then
                  { e with st := .sampleDue d (q.toNat + (g - s.tps.clock)) }
                else e
              | .awaiting => e) }).answering tag
            (.setClock q) (.ok (be 4 q.toNat))))

/-- SET WATCH writes group 3 whole, the pattern of switches not selected discarded, and evaluates it at
once; a mismatch after the write sets the flag and raises GROUP MISMATCH with the mismatch set and the
millisecond count, and a match leaves the flag as it was (R14, R15). -/
def Obligations.SetWatchWritesGroupThree : Prop :=
  ∀ (dt : Nat) (tag : Byte) (sel pat : SwitchSet) (s : State), s.ready →
    let h := s.heard dt
    let m := (h.sfe.debounced ^^^ pat) &&& sel
    let g := h.setSfe { h.sfe with
      g3 := ⟨sel, pat &&& sel, m, s.sfe.g3.flag || m != 0⟩ }
    exec (.setWatch dt tag sel pat) s = .next
      ((if m = 0 then g else g.raise (.groupMismatch m h.sfe.ms)).answering tag (.setWatch sel pat) .ok)

/-! ## Circulation messages -/

/-- DECLARE ADDITION is refused STATE in WATCH ENTRY, and RANGE for 0 or beyond 2,000,000 mL either way;
otherwise the volume joins the window in progress, held within 100,000,000 mL either way, and in HOLE
WATCH moves the reference by ten times the volume over the pit area in force, truncated towards zero
(R23, R39). With no window in progress no volume is kept (log 24), and before the first window the pit
area in force is the parameter as stored (log 12): both are the model's reading. -/
def Obligations.DeclaredVolumesJoinTheWindow : Prop :=
  ∀ (dt : Nat) (tag : Byte) (v : BitVec 32) (s : State), s.ready →
    let h := s.heard dt
    let c := exec (.declareAddition dt tag v) s
    (s.cm.mon = .watchEntry → c = .next (h.answering tag (.declareAddition v) (.refuse .state)))
    ∧ (s.cm.mon ≠ .watchEntry → v.toInt = 0 ∨ v.toInt < -2000000 ∨ 2000000 < v.toInt →
      c = .next (h.answering tag (.declareAddition v) (.refuse .range)))
    ∧ (s.cm.mon ≠ .watchEntry → v.toInt ≠ 0 → -2000000 ≤ v.toInt → v.toInt ≤ 2000000 →
      c = .next ((h.setCm
        { h.cm with
          win := s.cm.win.map (fun w =>
            { w with declared := max (-100000000) (min 100000000 (w.declared + v.toInt)) })
          ref := if s.cm.mon = .holeWatch then
              s.cm.ref.map (fun x => x + (v.toInt * 10).tdiv h.inForce.area)
            else s.cm.ref }).answering tag (.declareAddition v) .ok))

/-- ACCEPT LATCH: a latch code other than 1 and 2 is refused RANGE; a clear LOSS latch is DONE with no
change; a set one is cleared with its counts, LATCH CLEARED is raised with ACCEPTED, and the sequencer's
QUIET stage tests again; the GAIN latch only in IDLE after a PASSED check, and otherwise INTERLOCK (R25,
R34). A GAIN latch that is cleared begins the stage of an operation in a gain wait (R90); what its
clearing does to a trip between operations O33 says, and how a stage begins O31. -/
def Obligations.AcceptLatchClearsALatch : Prop :=
  ∀ (dt : Nat) (tag l : Byte) (s : State), s.ready →
    let h := s.heard dt
    let c := exec (.acceptLatch dt tag l) s
    (l ≠ 1 → l ≠ 2 → c = .next (h.answering tag (.acceptLatch l) (.refuse .range)))
    ∧ (l = 1 →
      (s.cm.lossLatch = none → c = .next (h.answering tag (.acceptLatch l) .ok))
      ∧ (s.cm.lossLatch ≠ none → c = .next ((settle (hsMonitor ((h.setCm
          { h.cm with lossLatch := none, lossSus := 0, lossClr := 0 }).raise
            (.latchCleared .loss .accepted)))).replying tag (.acceptLatch l) .ok)))
    ∧ (l = 2 →
      (¬(s.cm.mon = .idle ∧ s.cm.fcResult = .passed) →
        c = .next (h.answering tag (.acceptLatch l) (.refuse .interlock)))
      ∧ (s.cm.mon = .idle → s.cm.fcResult = .passed → s.cm.gainLatch = none →
        c = .next (h.answering tag (.acceptLatch l) .ok))
      ∧ (s.cm.mon = .idle → s.cm.fcResult = .passed → s.cm.gainLatch ≠ none →
        let t := (h.setCm { h.cm with gainLatch := none, gainSus := 0, gainClr := 0 }).raise
          (.latchCleared .gain .accepted)
        c = .next ((settle (hsGainCleared t)).replying tag (.acceptLatch l) .ok)
        ∧ (s.hs.seq ≠ .waiting → c = .next (t.answering tag (.acceptLatch l) .ok))
        ∧ ∀ o, s.hs.seq = .waiting → s.hs.op = some o → o.begun = false →
          c = .next ((settle (beginStage o.stage t)).replying tag (.acceptLatch l) .ok)))

/-- ENTER HOLE WATCH is refused STATE unless the monitor and the sequencer are IDLE, and INTERLOCK while
PIT LEVEL is faulted; otherwise group 2 is written with its flag clear, the captures begin at 0 and the
60 s timer starts, and where a switch already differs the entry aborts at once with cause SWITCH, the
reply still DONE (R35, R37). LEAVE HOLE WATCH is refused STATE outside WATCH ENTRY and HOLE WATCH; in
them it disarms group 2, drops the capture and the reference and enters IDLE (R40). -/
def Obligations.HoleWatchIsEnteredAndLeft : Prop :=
  ∀ (dt : Nat) (tag : Byte) (s : State), s.ready →
    let h := s.heard dt
    let c := exec (.enterHoleWatch dt tag) s
    let watched := switchMask .pitHigh ||| switchMask .pitLow ||| switchMask .returnPaddle
    let m := h.sfe.debounced &&& watched
    (s.cm.mon ≠ .idle ∨ s.hs.seq ≠ .idle →
      c = .next (h.answering tag .enterHoleWatch (.refuse .state)))
    ∧ (s.cm.mon = .idle → s.hs.seq = .idle → s.sfe.pit.st ≠ .good →
      c = .next (h.answering tag .enterHoleWatch (.refuse .interlock)))
    ∧ (s.cm.mon = .idle → s.hs.seq = .idle → s.sfe.pit.st = .good →
      (m = 0 → c = .next (((h.setSfe { h.sfe with g2 := ⟨watched, 0, 0, false⟩ }).setCm
          { h.cm with
            mon := .watchEntry, span := [], secPulses := 0, capSum := 0, capCount := 0, entryVol := 0
            capTimer := some 60000 }).answering tag .enterHoleWatch .ok))
      ∧ (m ≠ 0 → c = .next ((((h.setSfe { h.sfe with g2 := ⟨0, 0, 0, true⟩ }).setCm
          { h.cm with
            mon := .idle, span := [], secPulses := 0, capSum := 0, capCount := 0, entryVol := 0
            capTimer := none }).raise (.entryAborted .switch)).answering tag .enterHoleWatch .ok)))
    ∧ (s.cm.mon ≠ .watchEntry → s.cm.mon ≠ .holeWatch →
      exec (.leaveHoleWatch dt tag) s =
        .next (h.answering tag .leaveHoleWatch (.refuse .state)))
    ∧ (s.cm.mon = .watchEntry ∨ s.cm.mon = .holeWatch →
      exec (.leaveHoleWatch dt tag) s = .next ((settle (hsMonitor
        ((h.setSfe { h.sfe with g2 := ⟨0, 0, 0, s.sfe.g2.flag⟩ }).setCm
          { h.cm with
            mon := .idle, span := [], secPulses := 0, capSum := 0, capCount := 0, entryVol := 0
            capTimer := none, ref := none, hiStep := 0, loStep := 0 }))).replying
              tag .leaveHoleWatch .ok))

/-! ## Rods -/

/-- REGISTER ROD: serial, length and size class out of range are refused RANGE, a serial in use SLOT
OCCUPIED, a registry with no FREE entry and no retired one LIST FULL; otherwise the lowest FREE entry,
or else the oldest retired one, describes the new rod in RACK with no use behind it (R45). A serial is
in range where its six bytes are the codes 1 to 36 of the digits and letters (R44, R201); RETIRE ROD
refuses RANGE for one that is not (R182), and that it does so before it looks the serial up is the
model's reading (log 41). -/
def Obligations.RegisterRodFillsAnEntry : Prop :=
  ∀ (dt : Nat) (tag : Byte) (x : Serial) (len : BitVec 16) (cls : Byte) (s : State), s.ready →
    let h := s.heard dt
    let c := exec (.registerRod dt tag x len cls) s
    let r := Request.registerRod x len cls
    let inRange := serialValid x = true ∧ 1500 ≤ len.toNat ∧ len.toNat ≤ 6100 ∧ 1 ≤ cls.toNat
      ∧ cls.toNat ≤ 4
    let rod : Rod := ⟨x, len.toNat, cls.toNat, .rack, 0, 0, false, s.tps.clock⟩
    (serialValid x = true ↔ ∀ b ∈ serialBytes x, 1 ≤ b.toNat ∧ b.toNat ≤ 36)
    ∧ (serialValid x = false →
      exec (.retireRod dt tag x) s = .next (h.answering tag (.retireRod x) (.refuse .range)))
    ∧ (¬inRange → c = .next (h.answering tag r (.refuse .range)))
    ∧ (inRange → s.rrc.find x ≠ none → c = .next (h.answering tag r (.refuse .slotOccupied)))
    ∧ (inRange → s.rrc.find x = none →
      (∀ i, s.rrc.registry.findIdx? Option.isNone = some i →
        c = .next ((h.setRrc { s.rrc with registry := s.rrc.registry.set i (some rod) }).answering
          tag r (.ok (be 1 i))))
      ∧ (none ∉ s.rrc.registry →
        (s.rrc.retired = [] → c = .next (h.answering tag r (.refuse .listFull)))
        ∧ ∀ i rest, s.rrc.retired = i :: rest →
          c = .next ((h.setRrc
            { s.rrc with registry := s.rrc.registry.set i (some rod), retired := rest }).answering
              tag r (.ok (be 1 i)))))

/-- RETIRE ROD of a serial in range, as R46 states it: UNKNOWN ROD, STATE, BUSY, or the rod goes from
RACK to RETIRED at the end of the retired list, keeps its entry otherwise, shows in READ TALLY, and its
serial stays taken. -/
def Obligations.RetireRodMovesARodFromRackToRetired : Prop :=
  ∀ (dt : Nat) (tag : Byte) (x : Serial) (s : State), s.ready → serialValid x = true →
    let h := s.heard dt
    let c := exec (.retireRod dt tag x) s
    (s.rrc.find x = none → c = .next (h.answering tag (.retireRod x) (.refuse .unknownRod)))
    ∧ ∀ i rod, s.rrc.find x = some i → s.rrc.rod i = some rod →
      (rod.loc ≠ .rack → c = .next (h.answering tag (.retireRod x) (.refuse .state)))
      ∧ (rod.loc = .rack → (∃ intent, .reserved .loader intent i ∈ s.rrc.slots) →
        c = .next (h.answering tag (.retireRod x) (.refuse .busy)))
      ∧ (rod.loc = .rack → (∀ intent, .reserved .loader intent i ∉ s.rrc.slots) →
        let t := h.setRrc
          { s.rrc with
            registry := s.rrc.registry.set i (some { rod with loc := .retired })
            retired := s.rrc.retired ++ [i] }
        c = .next (t.answering tag (.retireRod x) .ok)
        ∧ t.rrc.find x = some i ∧ (readTally 1 x t).status = .done)

/-- The route to a slot and the nearest slot of a kind (R54), and an index motion's route from the index
position when it is requested and its timeout, 4,000 ms and 2,000 ms more for each step of the route
(R64, R71). -/
def Obligations.RoutesAreTheShorterWayRound : Prop :=
  (∀ index target : Nat, index < 40 → target < 40 →
    let a := (target + 40 - index) % 40
    routeTo index target = (if a ≤ 20 then (.ascending, a) else (.descending, 40 - a))
    ∧ (index + (match (routeTo index target).1 with
      | .ascending => (routeTo index target).2
      | .descending => 40 - (routeTo index target).2)) % 40 = target)
  ∧ (∀ (s : State) (c : Client) (n : Nat),
    (s.indexReq c n).route = some (routeTo s.rrc.index n)
    ∧ (s.indexReq c n).timeout = 4000 + 2000 * (routeTo s.rrc.index n).2)
  ∧ ∀ (r : Rrc) (p : Slot → Bool) (n : Nat), r.nearest p = some n ↔
    ∃ k, k < 40 ∧ n = (r.index + k) % 40 ∧ p (r.slotAt n) = true
      ∧ ∀ j, j < k → p (r.slotAt ((r.index + j) % 40)) = false

/-- LOAD SLOT and UNLOAD SLOT: their checks in order; once taken the slot is reserved to the loader,
which waits while the arm is not home or the carousel hold stands, and otherwise requests its index
motion at once (R56, R57, R58). Its motion complete, the rod of a LOAD is in the slot, which is LOADED,
and that of an UNLOAD in the rack, the slot EMPTY; its motion failed, the reservation is freed, the slot
LOADED where its rod is in it and EMPTY where not; either way the loader has no operation and LOAD DONE
tells the rod, the slot and the cause (R52, R59). A serial with a character other than A to Z and 0 to 9
is refused RANGE (R182); that it is so after BUSY and before the serial is looked up is the model's
reading (logs 21 and 41). -/
def Obligations.TheLoaderReservesAndRequests : Prop :=
  (∀ (dt : Nat) (tag : Byte) (s : State), s.ready →
     let h := s.heard dt
     let start := fun kind intent n i =>
       let o : LoadOp := ⟨kind, n, i, .waiting⟩
       let r := s.rrc.putSlot n (.reserved .loader intent i)
       if h.on .armHome = true ∧ s.rrc.hold = false then
         settle (requestMotion (h.indexReq .loader n)
           (h.setRrc { r with loader := some { o with phase := .requested } }))
       else h.setRrc { r with loader := some o }
     (∀ x n,
       let c := exec (.loadSlot dt tag x n) s
       let refuse := fun why => c = .next (h.answering tag (.loadSlot x n) (.refuse why))
       (s.rrc.loader ≠ none → refuse .busy)
       ∧ (s.rrc.loader = none →
         (serialValid x = false → refuse .range)
         ∧ (serialValid x = true →
           (s.rrc.find x = none → refuse .unknownRod)
           ∧ ∀ i rod, s.rrc.find x = some i → s.rrc.rod i = some rod →
             (rod.loc ≠ .rack → refuse .state)
             ∧ (rod.loc = .rack →
               (n ≠ 255 → 40 ≤ n.toNat → refuse .range)
               ∧ (n.toNat < 40 → s.rrc.slotAt n.toNat ≠ .empty → refuse .slotOccupied)
               ∧ (n.toNat < 40 → s.rrc.slotAt n.toNat = .empty →
                 c = .next ((start .load .receive n.toNat i).replying tag (.loadSlot x n)
                   (.accept (be 1 n.toNat))))
               ∧ (n = 255 → s.rrc.nearest Slot.isEmpty = none → refuse .slotOccupied)
               ∧ ∀ k, n = 255 → s.rrc.nearest Slot.isEmpty = some k →
                 c = .next ((start .load .receive k i).replying tag (.loadSlot x n)
                   (.accept (be 1 k)))))))
     ∧ ∀ n,
       let c := exec (.unloadSlot dt tag n) s
       let refuse := fun why => c = .next (h.answering tag (.unloadSlot n) (.refuse why))
       (s.rrc.loader ≠ none → refuse .busy)
       ∧ (s.rrc.loader = none →
         (40 ≤ n.toNat → refuse .range)
         ∧ (n.toNat < 40 →
           (s.rrc.slotAt n.toNat = .empty → refuse .slotEmpty)
           ∧ (∀ o j i, s.rrc.slotAt n.toNat = .reserved o j i → refuse .slotOccupied)
           ∧ ∀ i, s.rrc.slotAt n.toNat = .loaded i →
             c = .next ((start .unload .take n.toNat i).replying tag (.unloadSlot n) .accept))))
  ∧ ∀ (u : State) (o : LoadOp) (r : Req) (x : Rod), u.rrc.loader = some o → r.client = .loader →
      u.reports = [] → u.rrc.rod o.rod = some x →
      let moved := fun l : Loc => u.rrc.registry.set o.rod (some { x with loc := l })
      let ends := fun (registry : List (Option Rod)) (slot : Slot) (why : Option FailCause) =>
        (u.setRrc
          { u.rrc with
            registry := registry, slots := u.rrc.slots.set o.slot slot, loader := none }).raise
              (.loadDone o.kind x.serial o.slot why)
      (∀ how, o.kind = .load →
        settle (u.report (.complete r how)) = ends (moved (.slot o.slot)) (.loaded o.rod) none)
      ∧ (∀ how, o.kind = .unload →
        settle (u.report (.complete r how)) = ends (moved .rack) .empty none)
      ∧ ∀ cause m who intent i, u.rrc.slotAt o.slot = .reserved who intent i →
        let inIt := ∃ y, u.rrc.rod i = some y ∧ y.loc = .slot o.slot
        settle (u.report (.failed r cause m)) =
          ends u.rrc.registry (if inIt then .loaded i else .empty) (some cause)

/-- PLACE ROD is refused STATE unless the sequencer is IDLE and the arm holds a rod; a destination of no
meaning is refused RANGE, a slot that is not EMPTY SLOT OCCUPIED, a full string LIST FULL, a string of
another size class INTERLOCK; otherwise the rod is recorded where it was put, the arm is empty, and the
depth hold is released (R60, R88). That the destination code is tested after the arm is the model's
reading (log 21). -/
def Obligations.PlaceRodRecordsTheRod : Prop :=
  ∀ (dt : Nat) (tag d : Byte) (s : State), s.ready →
    let h := s.heard dt
    let c := exec (.placeRod dt tag d) s
    let refuse := fun why => c = .next (h.answering tag (.placeRod d) (.refuse why))
    let place := fun t =>
      c = .next ((settle (setDepthHold false t)).replying tag (.placeRod d) .ok)
    (s.hs.seq ≠ .idle ∨ s.rrc.arm = none → refuse .state)
    ∧ ∀ i rod, s.hs.seq = .idle → s.rrc.arm = some i → s.rrc.rod i = some rod →
      (41 < d.toNat → refuse .range)
      ∧ (d.toNat < 40 → s.rrc.slotAt d.toNat ≠ .empty → refuse .slotOccupied)
      ∧ (d.toNat < 40 → s.rrc.slotAt d.toNat = .empty → place (h.setRrc
        { s.rrc with
          registry := s.rrc.registry.set i (some { rod with loc := .slot d.toNat })
          slots := s.rrc.slots.set d.toNat (.loaded i), arm := none }))
      ∧ (d = 40 → 128 ≤ s.rrc.string.length → refuse .listFull)
      ∧ (d = 40 → s.rrc.string.length < 128 →
        ((∃ k, s.rrc.stringClass = some k ∧ k ≠ rod.cls) → refuse .interlock)
        ∧ ((∀ k, s.rrc.stringClass = some k → k = rod.cls) → place (deliverLength (h.setRrc
          { s.rrc with
            registry := s.rrc.registry.set i
              (some { rod with loc := .string (s.rrc.string.length + 1) })
            string := s.rrc.string ++ [(i, none)], arm := none }))))
      ∧ (d = 41 → place (h.setRrc
        { s.rrc with
          registry := s.rrc.registry.set i (some { rod with loc := .rack }), arm := none }))

/-! ## Handling -/

/-- ADD ROD and REMOVE ROD: BUSY unless the sequencer is IDLE, ARM OCCUPIED while the arm holds a rod,
and the refusals of the slot's choice; otherwise the slot is reserved to HANDLING, the flags of groups 0
and 1 are cleared, and QUIET begins with MAST LOCKED and STOP CHAIN HEALTHY watched. A watched switch
that is off holds the operation at once with GUARD; with both on it waits in QUIET, and goes on at once
if the pumps are quiet after a PASSED check and no GAIN latch stands (R55, R77 to R81, R92). Every reply
carries the handling status, behind the slot and the serial where it has them (log 10). Every stage
begins so: a string-opening one is chosen and not begun while the GAIN latch is set (R90); group 0 is
written, with CLAMP CLOSED between CLAMP's end and UNCLAMP, and a mismatch holds the operation with
GUARD (R80, R92); a motion stage requests its table's motion (R83, R85, R86), INDEX under the carousel
hold (R87) and BREAK under the depth hold; a driller stage, UNSCREW under the depth hold (R88), takes
its working figure, starts the 300 s of its stall timer (R82), and is tested at once (R79). -/
def Obligations.AnOperationStartsInQuiet : Prop :=
  (∀ (dt : Nat) (tag n : Byte) (op : Op) (s : State), s.ready →
     let h := s.heard dt
     let c := exec (match op with | .addRod => .addRod dt tag n | .removeRod => .removeRod dt tag n) s
     let r := match op with | .addRod => Request.addRod n | .removeRod => Request.removeRod n
     let slot := if n = 255 then none else some n.toNat
     let watched := switchMask .mastLocked ||| switchMask .stopChainHealthy
     let m := (h.sfe.debounced ^^^ watched) &&& watched
     (s.hs.seq ≠ .idle → c = .next (h.answering tag r (.refuse .busy (handlingStatus h))))
     ∧ (s.hs.seq = .idle → s.rrc.arm ≠ none →
       c = .next (h.answering tag r (.refuse .armOccupied (handlingStatus h))))
     ∧ (∀ why, s.hs.seq = .idle → s.rrc.arm = none → s.rrc.choose op slot = .error why →
       c = .next (h.answering tag r (.refuse why (handlingStatus h))))
     ∧ ∀ k i, s.hs.seq = .idle → s.rrc.arm = none → s.rrc.choose op slot = .ok (k, i) →
       let t := ((h.setRrc (s.rrc.putSlot k (.reserved .handling
           (match op with | .addRod => .take | .removeRod => .receive) i))).setSfe
         { h.sfe with
           g0 := ⟨watched, watched, m, m != 0⟩, g1 := { s.sfe.g1 with flag := false } }).setHs
         { s.hs with
           op := some ⟨op, i, k, .quiet, true, false, .grip, 0, none⟩, cause := none
           seq := .waiting, stall := none }
       let reply := fun t =>
         Reply.accept (be 1 k ++ serialBytes (s.rrc.serialOf i) ++ handlingStatus t)
       (m = 0 → quietMet h = false → c = .next (t.answering tag r (reply t)))
       ∧ (m = 0 → quietMet h = true →
         let u := settle (t.report (.stageMet .quiet))
         c = .next (u.replying tag r (reply u)))
       ∧ (m ≠ 0 →
         let u := settle ((withdraw .handling (t.setHs
           { t.hs with seq := .held, cause := some (.held .guard (some m)) })).raise
             (.opHeld op .quiet .guard (some m)))
         c = .next (u.replying tag r (reply u))))
  ∧ (∀ u : State, quietMet u = true ↔ u.cm.pump1.st = .stopped ∧ u.cm.pump2.st = .stopped
      ∧ u.cm.mon = .idle ∧ u.cm.fcResult = .passed ∧ u.cm.gainLatch = none)
  ∧ (∀ (b : Bool) (u : State), setHold b u =
      if u.rrc.hold = b then u else loaderTest (u.setRrc { u.rrc with hold := b }))
  ∧ ∀ (u : State) (o : OpRec) (st : Stage), u.hs.op = some o → st ∈ o.op.stages →
      let c := beginStage st u
      let new := { o with stage := st, begun := false, wrench := .grip }
      let opens := st = .unscrew ∨ st = .brk ∨ st = .spin
      let clamped := (o.op = .addRod ∧ st ∈ [.unscrew, .index, .present, .make, .ret])
        ∨ (o.op = .removeRod ∧ st ∈ [.brk, .spin, .catchRod, .free, .stow, .ret, .reconnect])
      let two := switchMask .mastLocked ||| switchMask .stopChainHealthy
      (opens → u.cm.gainLatch ≠ none →
        c = u.setHs { u.hs with op := some new, seq := .waiting, stall := none })
      ∧ (¬(opens ∧ u.cm.gainLatch ≠ none) →
        ∀ g, (clamped → g = two ||| switchMask .clampClosed) → (¬clamped → g = two) →
        let m := (u.sfe.debounced ^^^ g) &&& g
        let w := (u.setSfe { u.sfe with g0 := ⟨g, g, m, u.sfe.g0.flag || m != 0⟩ }).setHs
          { u.hs with op := some { new with begun := true }, seq := .waiting, stall := none }
        (m ≠ 0 → c = (withdraw .handling (w.setHs
          { w.hs with seq := .held, cause := some (.held .guard (some m)) })).raise
            (.opHeld o.op st .guard (some m)))
        ∧ (m = 0 →
          let run := fun v : State => v.setHs { v.hs with seq := .running, stall := none }
          let moves := fun fn dir sw =>
            c = requestMotion (Req.new .handling fn dir (.switch sw)) (run w)
          (st = .clamp → moves .clamp .first .clampClosed)
          ∧ (st = .unclamp → moves .clamp .second .clampOpen)
          ∧ (st = .present ∨ st = .catchRod → moves .arm .first .armAtCentre)
          ∧ (st = .stow → moves .arm .second .armAtCarousel)
          ∧ (st = .ret → o.op = .addRod → moves .arm .second .armHome)
          ∧ (st = .ret → o.op = .removeRod → moves .arm .first .armHome)
          ∧ (st = .brk → c = requestMotion
            (Req.new .handling .wrench .first (.switch .wrenchGripped)) (run (setDepthHold true w)))
          ∧ (st = .index → c = requestMotion
            ((setHold true w).indexReq .handling o.slot) (run (setHold true w)))
          ∧ (st ∈ [.quiet, .unscrew, .make, .lift, .spin, .free, .reconnect] →
            let v := if st = .unscrew then setDepthHold true w else w
            let off := v.on .headConnected = false
            let met := (st = .quiet ∧ quietMet v = true) ∨ ((st = .unscrew ∨ st = .free) ∧ off)
              ∨ (st = .reconnect ∧ ¬off)
              ∨ (st = .make ∧ ¬off ∧ (v.sfe.torque.st ≠ .good
                ∨ ∃ x, v.sfe.torque.value = some x ∧ v.pMakeTorque ≤ x))
              ∨ (st = .lift ∧ v.sfe.enc = .good ∧ ∃ x rod, v.sfe.head = some x
                ∧ v.rrc.rod o.rod = some rod ∧ rod.length ≤ x)
              ∨ (st = .spin ∧ v.pSpinTurns ≤ (v.sfe.rotCount + (2 ^ 32 - v.sfe.rotCount)) % 2 ^ 32)
            let x := v.setHs
              { v.hs with
                op := some { new with
                  begun := true
                  rotBase := if st = .spin then v.sfe.rotCount else o.rotBase
                  peak := if st = .make then none else o.peak }
                seq := .waiting, stall := if st = .quiet then none else some 300000 }
            (met → c = x.report (.stageMet st)) ∧ (¬met → c = x))))

/-- A stage's end. A stage waited in, or a HANDLING motion, that ends completes the stage (R79): the
record changes of R83 and R85 are made, the rod moved (R47), the connection counted and the rod worn at
the limit (R48), the reservation ended (R52), the holds released (R88), group 0 written again after
CLAMP (R80), and the next stage begins; after UNCLAMP the operation ends DONE (R89). MAKE, SPIN and LIFT
complete by the torque, the turns and the head height (R84, R86). The slot's choice: with no slot named,
ADD ROD takes the nearest LOADED slot whose rod is not worn and of the string's class, and REMOVE ROD
the nearest EMPTY one for the top rod; a named slot must be one such; and each refusal has its reason
(R55). BREAK's first motion is followed by its second (R86), and the stages follow one another in the
order of their tables (R83, R85). That the stage after CLAMP is chosen and not begun where its group's
write holds the operation is the model's reading (log 23); the 99 hand-overs that are left after the one
spoken of are the model's bound (log 7). -/
def Obligations.TheSlotChosenFitsTheOperation : Prop :=
  (∀ (r : Rrc) (n : Nat),
     (128 ≤ r.string.length → ∀ k, r.choose .addRod k = .error .listFull)
     ∧ (r.string.length < 128 →
       (40 ≤ n → r.choose .addRod (some n) = .error .range)
       ∧ (n < 40 →
         (r.slotAt n = .empty → r.choose .addRod (some n) = .error .slotEmpty)
         ∧ (∀ o j i, r.slotAt n = .reserved o j i →
           r.choose .addRod (some n) = .error .slotOccupied)
         ∧ ∀ i rod, r.slotAt n = .loaded i → r.rod i = some rod →
           r.choose .addRod (some n) =
             if rod.worn = false ∧ ∀ k ∈ r.stringClass, k = rod.cls then .ok (n, i)
             else .error .interlock)
       ∧ (r.nearest r.eligible = none → r.choose .addRod none = .error .slotEmpty)
       ∧ ∀ i, r.nearest r.eligible = some n → r.slotAt n = .loaded i →
         r.choose .addRod none = .ok (n, i))
     ∧ (r.string = [] → ∀ k, r.choose .removeRod k = .error .state)
     ∧ ∀ i torque rest, r.string = rest ++ [(i, torque)] →
       (40 ≤ n → r.choose .removeRod (some n) = .error .range)
       ∧ (n < 40 → r.choose .removeRod (some n) =
         if r.slotAt n = .empty then .ok (n, i) else .error .slotOccupied)
       ∧ (r.nearest Slot.isEmpty = none → r.choose .removeRod none = .error .slotOccupied)
       ∧ (r.nearest Slot.isEmpty = some n → r.choose .removeRod none = .ok (n, i)))
  ∧ (∀ (u : State) (o : OpRec), u.hs.op = some o → u.reports = [] →
      (u.hs.seq = .waiting → o.begun = true →
        settle (u.report (.stageMet o.stage)) = settleWith 99 (completeStage u))
      ∧ ∀ r how, r.client = .handling → u.hs.seq = .running → ¬(o.stage = .brk ∧ o.wrench = .grip) →
        settle (u.report (.complete r how)) = settleWith 99 (completeStage u))
  ∧ (∀ (u : State) (o : OpRec), u.hs.op = some o →
      let v := u.setHs { u.hs with stall := none }
      let done := completeStage u
      let reg := u.rrc.registry
      let at_ := fun (i : Nat) (l : Loc) => reg.modify i (Option.map (fun x => { x with loc := l }))
      let count := fun x : Rod =>
        { x with
          conns := min (x.conns + 1) 65535
          worn := x.worn || decide (u.pConnLimit ≤ min (x.conns + 1) 65535) }
      let told := fun (x : Rod) (w : State) =>
        if x.worn = false ∧ u.pConnLimit ≤ min (x.conns + 1) 65535 then
          w.raise (.rodWorn x.serial .connections (min (x.conns + 1) 65535) x.dist)
        else w
      (∀ st, o.stage ∈ [.quiet, .unscrew, .index, .lift, .spin, .catchRod, .reconnect] →
        o.op.next o.stage = some st → done = beginStage st v)
      ∧ (∀ st, o.stage = .clamp → o.op.next .clamp = some st →
        let g := switchMask .mastLocked ||| switchMask .stopChainHealthy ||| switchMask .clampClosed
        let m := (u.sfe.debounced ^^^ g) &&& g
        let w := v.setSfe { u.sfe with g0 := ⟨g, g, m, u.sfe.g0.flag || m != 0⟩ }
        (m = 0 → done = beginStage st w)
        ∧ (m ≠ 0 → done = (withdraw .handling (w.setHs
          { u.hs with
            seq := .held, cause := some (.held .guard (some m)), stall := none
            op := some { o with stage := st, begun := false } })).raise
              (.opHeld o.op st .guard (some m))))
      ∧ (o.op = .addRod → o.stage = .present → done = beginStage .make (v.setRrc
        { u.rrc with registry := at_ o.rod .arm, arm := some o.rod }))
      ∧ (∀ x, o.op = .addRod → o.stage = .make → u.rrc.rod o.rod = some x →
        done = beginStage .ret (setDepthHold false (deliverLength (dibTorque o.peak (told x (v.setRrc
          { u.rrc with
            registry := reg.set o.rod (some (count
              { x with loc := .string (u.rrc.string.length + 1) }))
            string := u.rrc.string ++ [(o.rod, o.peak)], arm := none }))))))
      ∧ (o.op = .addRod → o.stage = .ret → done = beginStage .unclamp (setHold false (v.setRrc
        { u.rrc with slots := u.rrc.slots.set o.slot .empty })))
      ∧ (∀ x, o.op = .removeRod → o.stage = .brk → u.rrc.rod o.rod = some x →
        done = beginStage .spin (told x (v.setRrc
          { u.rrc with registry := reg.set o.rod (some (count x)) })))
      ∧ (∀ i torque rest, o.op = .removeRod → o.stage = .free →
        u.rrc.string = rest ++ [(i, torque)] →
        done = beginStage .stow (setDepthHold false (deliverLength (v.setRrc
          { u.rrc with registry := at_ i .arm, string := rest, arm := some i }))))
      ∧ (o.op = .removeRod → o.stage = .stow → done = beginStage .ret (v.setRrc
        { u.rrc with
          registry := at_ o.rod (.slot o.slot)
          slots := u.rrc.slots.set o.slot (.loaded o.rod), arm := none }))
      ∧ (o.op = .removeRod → o.stage = .ret → done = beginStage .reconnect (setHold false v))
      ∧ (o.stage = .unclamp →
        let e := ((v.setSfe { u.sfe with g0 := ⟨0, 0, 0, u.sfe.g0.flag⟩ }).setHs
          { u.hs with seq := .idle, op := none, cause := none, stall := none }).raise
            (.opDone o.op (u.rrc.serialOf o.rod) o.slot u.rrc.string.length)
        done = if o.trip then tripContinue e else e)
      ∧ (∀ b, setDepthHold b u =
          if u.hs.depthHold = b then u else decideDepth (u.setHs { u.hs with depthHold := b }))
      ∧ (u.hs.seq = .waiting → o.begun = true →
        (o.stage = .spin → hsRotation u =
          if u.pSpinTurns ≤ (u.sfe.rotCount + (2 ^ 32 - o.rotBase)) % 2 ^ 32 then
            u.report (.stageMet .spin) else u)
        ∧ (o.stage = .lift → u.sfe.enc ≠ .good → hsHead u = u)
        ∧ (∀ x rod, o.stage = .lift → u.sfe.enc = .good → u.sfe.head = some x →
          u.rrc.rod o.rod = some rod →
          hsHead u = if rod.length ≤ x then u.report (.stageMet .lift) else u)
        ∧ (o.stage = .make → u.on .headConnected = false → hsTorque u = u)
        ∧ (o.stage = .make → u.on .headConnected = true → u.sfe.torque.st ≠ .good →
          hsTorque u = u.report (.stageMet .make))
        ∧ ∀ x, o.stage = .make → u.on .headConnected = true → u.sfe.torque.st = .good →
          u.sfe.torque.value = some x →
          let w := u.setHs { u.hs with op := some { o with peak := some (max x (o.peak.getD 0)) } }
          hsTorque u = if u.pMakeTorque ≤ x then w.report (.stageMet .make) else w))
  ∧ (∀ (dt : Nat) (sw : Switch) (s : State) (o : OpRec), s.awake → s.hs.op = some o →
      let h := s.elapse dt
      let c := exec (.switchChangeTaken dt sw) s
      let on := inSet s.sfe.raw sw
      let d := putSwitch h.sfe.debounced sw on
      let f := h.setSfe { h.sfe with debounced := d, stab := h.sfe.stab.set (switchIndex sw) none }
      let due := inSet h.sfe.acquired sw = true ∧ h.sfe.stab.getD (switchIndex sw) none = some 0
        ∧ on ≠ inSet h.sfe.debounced sw ∧ inSet s.sfe.g0.sel sw = false
        ∧ inSet s.sfe.g1.sel sw = false ∧ inSet s.sfe.g2.sel sw = false
        ∧ inSet s.sfe.g3.sel sw = false
      (∀ r, due → on = true → sw ≠ .headConnected → sw ≠ .indexLocked → s.rrc.loader = none →
        h.aha = ⟨some r, [], [], h.aha.valve⟩ → r.client = .handling → r.target = .switch sw →
        r.fn ≠ .index → s.hs.seq = .running → ¬(o.stage = .brk ∧ o.wrench = .grip) →
        c = .next (finish (settleWith 99 (completeStage (f.setAha ⟨none, [], [], none⟩)))))
      ∧ (due → sw = .headConnected → s.hs.seq = .waiting → o.begun = true →
        (o.stage = .unscrew ∧ on = false) ∨ (o.stage = .free ∧ on = false)
          ∨ (o.stage = .reconnect ∧ on = true)
          ∨ (o.stage = .make ∧ on = true ∧ (s.sfe.torque.st ≠ .good
            ∨ ∃ x, s.sfe.torque.value = some x ∧ s.pMakeTorque ≤ x)) →
        c = .next (finish (settleWith 99 (completeStage (decideDepth f))))))
  ∧ (∀ op : Op, op.stages = match op with
        | .addRod => [.quiet, .clamp, .unscrew, .index, .present, .make, .ret, .unclamp]
        | .removeRod => [.quiet, .index, .lift, .clamp, .brk, .spin, .catchRod, .free, .stow, .ret,
            .reconnect, .unclamp])
  ∧ (∀ (op : Op) (a b : List Stage) (st : Stage), op.stages = a ++ st :: b → op.next st = b.head?)
  ∧ (∀ (r : Rrc) (x : Slot),
      (r.eligible x = true ↔ ∃ i rod, x = .loaded i ∧ r.rod i = some rod ∧ rod.worn = false
        ∧ ∀ k ∈ r.stringClass, k = rod.cls)
      ∧ (r.string = [] → r.stringClass = none)
      ∧ ∀ rest i torque rod, r.string = rest ++ [(i, torque)] → r.rod i = some rod →
        r.stringClass = some rod.cls)
  ∧ ∀ (u : State) (o : OpRec) (r : Req) (how : MotionEnd), u.hs.op = some o → u.reports = [] →
      r.client = .handling → u.hs.seq = .running → o.stage = .brk → o.wrench = .grip →
      settle (u.report (.complete r how)) = settleWith 99 (requestMotion
        (Req.new .handling .wrench .second (.switch .wrenchOpen))
        (u.setHs { u.hs with op := some { o with wrench := .release } }))

/-- START TRIP: BUSY, ARM OCCUPIED, a direction or a count out of range RANGE, the refusals of the first
slot's choice; otherwise the trip record begins ACTIVE with its count, and its first operation starts as
a lone one does, with its trip mark set (R97). After an operation of the trip has ended, the done count
rises, and the trip ends with COUNT, ends STOPPED by its mark, waits while the GAIN latch is set until
it is cleared, ends with NO ROD or CAROUSEL FULL where the slot's choice fails, or starts its next
operation (R98, R100); it goes on by the same steps at a RESUME between operations (R95). The GAIN
latch's clearing begins the stage of an operation in a gain wait, lets a trip that waits go on, has
QUIET tested, and does nothing to a sequencer that does not wait (R81, R90, R98). An operation starts
with the flags of groups 0 and 1 cleared, its trip mark as given, in QUIET, whose beginning O31 spells
(R14, R78, R97). That the codes are tested after the arm is the model's reading (log 21), and so is the
order of the reply's fields (log 10). -/
def Obligations.ATripStartsItsFirstOperation : Prop :=
  (∀ (dt : Nat) (tag d n : Byte) (s : State), s.ready →
     let h := s.heard dt
     let c := exec (.startTrip dt tag d n) s
     let r := Request.startTrip d n
     let refuse := fun why => c = .next (h.answering tag r (.refuse why (handlingStatus h)))
     (s.hs.seq ≠ .idle → refuse .busy)
     ∧ (s.hs.seq = .idle → s.rrc.arm ≠ none → refuse .armOccupied)
     ∧ (s.hs.seq = .idle → s.rrc.arm = none →
       (d ≠ 1 → d ≠ 2 → refuse .range)
       ∧ ∀ dir op top, (d = 1 ∧ dir = .out ∧ op = .removeRod ∧ top = s.rrc.string.length)
           ∨ (d = 2 ∧ dir = .inward ∧ op = .addRod ∧ top = 128 - s.rrc.string.length) →
         (n.toNat < 1 ∨ 128 < n.toNat ∨ top < n.toNat → refuse .range)
         ∧ (1 ≤ n.toNat → n.toNat ≤ 128 → n.toNat ≤ top →
           (∀ why, s.rrc.choose op none = .error why → refuse why)
           ∧ ∀ k i, s.rrc.choose op none = .ok (k, i) →
             let u := settle (startOp op k i true ((h.setHs
               { h.hs with trip := some ⟨dir, n.toNat, 0, false, s.tps.clock, none⟩ }).setRrc
                 (s.rrc.reserveFor op k i)))
             c = .next (u.replying tag r
               (.accept (be 1 k ++ serialBytes (s.rrc.serialOf i) ++ handlingStatus u))))))
  ∧ (∀ (u : State) (t : TripRec), u.hs.trip = some t →
      let ends := fun (n : Nat) (why : TripEnd) => (u.setHs
        { u.hs with
          trip := some { t with done := n, ended := some (why, u.tps.clock) }, seq := .idle }).raise
            (.tripEnded t.dir t.count n why)
      let goesOn := fun (n : Nat) (v : State) =>
        (t.stop = true → v = ends n .stopped)
        ∧ (t.stop = false → u.cm.gainLatch ≠ none → v = u.setHs
          { u.hs with trip := some { t with done := n }, seq := .waiting })
        ∧ ∀ op fails, t.stop = false → u.cm.gainLatch = none →
          (t.dir = .out ∧ op = .removeRod ∧ fails = .carouselFull)
            ∨ (t.dir = .inward ∧ op = .addRod ∧ fails = .noRod) →
          (∀ why, u.rrc.choose op none = .error why → v = ends n fails)
          ∧ ∀ k i, u.rrc.choose op none = .ok (k, i) →
            v = startOp op k i true ((u.setHs
              { u.hs with trip := some { t with done := n } }).setRrc (u.rrc.reserveFor op k i))
      (t.done + 1 = t.count → tripContinue u = ends (t.done + 1) .count)
      ∧ (t.done + 1 ≠ t.count → goesOn (t.done + 1) (tripContinue u))
      ∧ goesOn t.done (tripNext u)
      ∧ (u.hs.seq = .waiting → u.hs.op = none → t.ended = none → goesOn t.done (hsGainCleared u)))
  ∧ (∀ u : State,
      (u.hs.seq ≠ .waiting → hsGainCleared u = u)
      ∧ (u.hs.op = none → (∀ t, u.hs.trip = some t → t.ended ≠ none) → hsGainCleared u = u)
      ∧ ∀ o, u.hs.seq = .waiting → u.hs.op = some o →
        (o.begun = false → hsGainCleared u = beginStage o.stage u)
        ∧ (o.begun = true → hsGainCleared u = hsMonitor u))
  ∧ ∀ (op : Op) (k i : Nat) (trip : Bool) (u : State),
      startOp op k i trip u = beginStage .quiet ((u.setSfe
        { u.sfe with g0 := { u.sfe.g0 with flag := false }, g1 := { u.sfe.g1 with flag := false } }).setHs
          { u.hs with
            op := some ⟨op, i, k, .quiet, false, trip, .grip, 0, none⟩, cause := none
            seq := .waiting, stall := none })

/-- STOP TRIP is refused STATE with no ACTIVE trip or with the sequencer IDLE or INTERRUPTED; it stops a
trip between operations at once, and marks one whose operation is in flight (R99, R100). RESUME is
refused STATE outside HELD, FAULTED and INTERRUPTED, and INTERLOCK where one of R95's conditions fails;
otherwise the flags of groups 0 and 1 are cleared (R14), and the current stage begins again (O31), or a
trip between operations goes on: it ends STOPPED by its mark, waits while the GAIN latch is set, ends
with CAROUSEL FULL or NO ROD where the slot's choice fails, or starts its next operation with its trip
mark set (R95, R97, R98; O33 spells the start). -/
def Obligations.StopTripAndResumeMoveTheSequencer : Prop :=
  (∀ (dt : Nat) (tag : Byte) (s : State), s.ready →
     let h := s.heard dt
     let c := exec (.stopTrip dt tag) s
     (s.hs.seq = .idle ∨ s.hs.seq = .interrupted ∨ s.hs.tripActive = false →
       c = .next (h.answering tag .stopTrip (.refuse .state (handlingStatus h))))
     ∧ ∀ t, s.hs.seq ≠ .idle → s.hs.seq ≠ .interrupted → s.hs.trip = some t → t.ended = none →
       (s.hs.op = none →
         let u := (h.setHs
           { h.hs with trip := some { t with ended := some (.stopped, s.tps.clock) }, seq := .idle }).raise
             (.tripEnded t.dir t.count t.done .stopped)
         c = .next (u.answering tag .stopTrip (.ok (handlingStatus u))))
       ∧ (s.hs.op ≠ none →
         let u := h.setHs { h.hs with trip := some { t with stop := true } }
         c = .next (u.answering tag .stopTrip (.ok (handlingStatus u)))))
  ∧ (∀ (dt : Nat) (tag : Byte) (s : State), s.ready →
       let h := s.heard dt
       let c := exec (.resume dt tag) s
       let stopped := s.hs.seq = .held ∨ s.hs.seq = .faulted ∨ s.hs.seq = .interrupted
       (¬stopped → c = .next (h.answering tag .resume (.refuse .state (handlingStatus h))))
       ∧ (stopped → s.hs.op = none →
         let u := settle (tripNext (h.setSfe
           { h.sfe with g0 := { s.sfe.g0 with flag := false }, g1 := { s.sfe.g1 with flag := false } }))
         c = .next (u.replying tag .resume (.ok (handlingStatus u))))
       ∧ (∀ t, stopped → s.hs.op = none → s.hs.trip = some t →
         let v := h.setSfe
           { h.sfe with g0 := { s.sfe.g0 with flag := false }, g1 := { s.sfe.g1 with flag := false } }
         let went := fun w => c = .next ((settle w).replying tag .resume (.ok (handlingStatus (settle w))))
         let ends := fun why : TripEnd => (v.setHs
           { h.hs with trip := some { t with ended := some (why, s.tps.clock) }, seq := .idle }).raise
             (.tripEnded t.dir t.count t.done why)
         (t.stop = true → went (ends .stopped))
         ∧ (t.stop = false → s.cm.gainLatch ≠ none → went (v.setHs { h.hs with seq := .waiting }))
         ∧ ∀ op fails, t.stop = false → s.cm.gainLatch = none →
           (t.dir = .out ∧ op = .removeRod ∧ fails = .carouselFull)
             ∨ (t.dir = .inward ∧ op = .addRod ∧ fails = .noRod) →
           (∀ why, s.rrc.choose op none = .error why → went (ends fails))
           ∧ ∀ k i, s.rrc.choose op none = .ok (k, i) →
             went (startOp op k i true (v.setRrc (s.rrc.reserveFor op k i))))
       ∧ ∀ o, stopped → s.hs.op = some o →
         let allowed := h.on .mastLocked = true ∧ h.on .stopChainHealthy = true
           ∧ (selectsClamp o.op o.stage = true → h.on .clampClosed = true)
           ∧ (o.stage ≠ .quiet → o.stage ≠ .unclamp → s.cm.pump1.st = .stopped ∧ s.cm.pump2.st = .stopped)
           ∧ (o.stage = .index → h.on .armHome = true)
         (¬allowed → c = .next (h.answering tag .resume (.refuse .interlock (handlingStatus h))))
         ∧ (allowed →
           let u := settle (beginStage o.stage ((h.setSfe
             { h.sfe with g0 := { s.sfe.g0 with flag := false }, g1 := { s.sfe.g1 with flag := false } }).setHs
               { h.hs with cause := none }))
           c = .next (u.replying tag .resume (.ok (handlingStatus u)))))

/-- ABORT is refused STATE in IDLE, and ends a trip between operations ABORTED. With an operation in
flight it is always answered DONE: the HANDLING request is withdrawn and the grant passes on, the
reservation is freed, the carousel hold and group 0 are cleared, the sequencer is IDLE with no
operation, the depth hold is released where the arm is empty, OP ABORTED is raised, and the trip of a
trip's operation ends with FAULT if the operation was FAULTED and ABORTED if not (R52, R96, R100). Where
the arbiter is in its order (the invariant of O6), the arm holds a rod and no other client has a
request, nothing follows from the hold or the grant, and the whole next state is spelled out: the slot
is left LOADED if its rod is still in it and EMPTY if not, and nothing else changes. -/
def Obligations.AbortEndsTheOperation : Prop :=
  ∀ (dt : Nat) (tag : Byte) (s : State), s.ready →
    let h := s.heard dt
    let c := exec (.abort dt tag) s
    (s.hs.seq = .idle → c = .next (h.answering tag .abort (.refuse .state (handlingStatus h))))
    ∧ (∀ t, s.hs.seq ≠ .idle → s.hs.op = none → s.hs.trip = some t →
      let u := (h.setHs
        { h.hs with trip := some { t with ended := some (.aborted, s.tps.clock) }, seq := .idle }).raise
          (.tripEnded t.dir t.count t.done .aborted)
      c = .next (u.answering tag .abort (.ok (handlingStatus u))))
    ∧ ∀ o, s.hs.seq ≠ .idle → s.hs.op = some o →
      let free := fun u : State => match u.rrc.slotAt o.slot with
        | .reserved .handling _ _ => u.setRrc (u.rrc.freeSlot o.slot)
        | _ => u
      let why : TripEnd := if s.hs.seq = .faulted then .fault else .aborted
      let off := fun u : State => (disarmGroup .g0 u).setHs
        { u.hs with op := none, cause := none, stall := none, seq := .idle }
      let release := fun u : State => if u.rrc.arm = none then setDepthHold false u else u
      let told := fun u : State => u.raise
        (.opAborted o.op o.stage (u.rrc.serialOf o.rod) u.rrc.arm)
      let ends := fun u : State => match o.trip, u.hs.trip with
        | true, some t => (u.setHs
            { u.hs with trip := some { t with ended := some (why, u.tps.clock) }, seq := .idle }).raise
              (.tripEnded t.dir t.count t.done why)
        | _, _ => u
      let t := settle (ends (told (release (off (setHold false (free (withdraw .handling h)))))))
      c = .next (t.replying tag .abort (.ok (handlingStatus t)))
      ∧ ∀ rod, s.ahaOk → s.rrc.arm = some rod → s.rrc.loader = none → s.aha.stack = [] → s.aha.waiting = [] →
        (∀ q, s.aha.holder = some q → q.client = .handling ∧ q.fn ≠ .index) →
        let slot : Slot := match s.rrc.slotAt o.slot with
          | .reserved .handling _ i =>
            if ∃ x, s.rrc.rod i = some x ∧ x.loc = .slot o.slot then .loaded i else .empty
          | x => x
        let u := (((h.setAha ⟨none, [], [], none⟩).setSfe
          { h.sfe with g0 := ⟨0, 0, 0, s.sfe.g0.flag⟩ }).setRrc
            { s.rrc with
              slots := s.rrc.slots.set o.slot slot
              hold := false }).setHs
                { s.hs with seq := .idle, op := none, cause := none, stall := none }
        c = .next ((ends (told u)).answering tag .abort (.ok (handlingStatus (ends (told u)))))

/-! ## Intervals, tariffs and jobs -/

/-- MARK INTERVAL: NO JOB, STATE in CLOSING or with no open interval, TOO SHORT below 100 mm, BUSY with
no room; otherwise, the head forced out where that is needed, the interval joins the queue closed at the
high-water mark, INTERVAL CLOSED is raised, and the next interval opens there (R115, R116, R117).
ANNOTATE: interval 0 is refused RANGE; an interval neither open nor in the queue without its flush mark
NOT FOUND; a carried code above 250 RANGE; otherwise each field carried replaces the stored one, 0
making it absent, and a final mark carried stays set, in the open interval or in the queue's first entry
of that number, after which the head is tested for commit (R121, R122). The closed interval takes its
mean ROP and its lag mark (R116, R118, log 40). Where 16 entries wait, or one of an earlier job, a
closing forces the head out, with UNSAMPLED if it is not ready, or finds no room where the writer queue
is full (R115). The order of the refusals of ANNOTATE is the model's reading (log 21), and so are that
it ignores bits 4 to 7 of its flags (log 45), what a refused closing leaves (log 27), and that the
writer queue counts as full with the numbers exhausted (log 46). -/
def Obligations.IntervalsAreMarkedAndAnnotated : Prop :=
  (∀ (dt : Nat) (tag : Byte) (s : State), s.ready →
     let h := s.heard dt
     let c := exec (.markInterval dt tag) s
     let refuse := fun why => c = .next (h.answering tag .markInterval (.refuse why))
     (s.bu.jobSt = .noJob → refuse .noJob)
     ∧ (s.bu.jobSt = .closing → refuse .state)
     ∧ (s.bu.jobSt = .opened ∨ s.bu.jobSt = .suspended →
       (s.dib.openIv = none → refuse .state)
       ∧ ∀ iv, s.dib.openIv = some iv →
         (s.dib.hwm < iv.top + 100 → refuse .tooShort)
         ∧ (iv.top + 100 ≤ s.dib.hwm →
           (s.dib.queue.length < 16 → (∀ e ∈ s.dib.queue, e.flush = false) → makeRoom h = (h, true))
           ∧ (16 ≤ s.dib.queue.length → s.rws.hasPlace = false → makeRoom h = (h, false))
           ∧ (∀ u, makeRoom h = (u, false) → refuse .busy)
           ∧ ∀ u, makeRoom h = (u, true) →
             let e := closedEntry iv s.dib.hwm u
             let t := openInterval s.dib.hwm ((u.setDib
               { u.dib with queue := u.dib.queue ++ [e], openIv := none }).raise
                 (.intervalClosed iv.job iv.number iv.top s.dib.hwm e.rop iv.meanPressure
                   (BitVec.ofNat 8 (iv.flagByte false))))
             c = .next (t.answering tag .markInterval (.ok (be 2 iv.number ++ be 4 s.dib.hwm))))))
  ∧ (∀ (dt : Nat) (tag : Byte) (i : BitVec 16) (lith : Byte) (bag : BitVec 16) (remark flags : Byte)
         (s : State), s.ready →
       let h := s.heard dt
       let c := exec (.annotate dt tag i lith bag remark flags) s
       let r := Request.annotate i lith bag remark flags
       let refuse := fun why => c = .next (h.answering tag r (.refuse why))
       let field := fun (b : Bool) (n : Nat) (old : Option Nat) =>
         if b then (if n = 0 then none else some n) else old
       let noted := fun v : Interval => { v with
         lith := field (flags.getLsbD 0) lith.toNat v.lith
         bag := field (flags.getLsbD 1) bag.toNat v.bag
         remark := field (flags.getLsbD 2) remark.toNat v.remark
         final := v.final || flags.getLsbD 3 }
       let above := (flags.getLsbD 0 = true ∧ 250 < lith.toNat)
         ∨ (flags.getLsbD 2 = true ∧ 250 < remark.toNat)
       let isOpen := ∃ v, s.dib.openIv = some v ∧ v.number = i.toNat
       let waits := fun e : Entry => e.iv.number = i.toNat ∧ e.flush = false
       (i = 0 → refuse .range)
       ∧ (i ≠ 0 → ¬isOpen → (∀ e ∈ s.dib.queue, ¬waits e) → refuse .notFound)
       ∧ (i ≠ 0 → isOpen ∨ (∃ e ∈ s.dib.queue, waits e) → above → refuse .range)
       ∧ (i ≠ 0 → ¬above →
         (isOpen → c = .next ((h.setDib { s.dib with openIv := s.dib.openIv.map noted }).answering
           tag r .ok))
         ∧ ∀ pre e post, ¬isOpen → s.dib.queue = pre ++ e :: post → waits e →
           (∀ x ∈ pre, ¬waits x) →
           c = .next ((testHead (h.setDib
             { s.dib with queue := pre ++ { e with iv := noted e.iv } :: post })).answering tag r .ok)))
  ∧ (∀ (iv : Interval) (bottom : Nat) (u : State),
      closedEntry iv bottom u =
        { iv := iv, bottom := bottom, closeSec := u.tps.clock
          rop := if iv.drillSecs = 0 then none else some ((bottom - iv.top) * 60 / iv.drillSecs)
          cumClose := u.dib.cumLast, lag := u.dib.cumLast + bottom * u.pAnnular / 1000
          st := .awaiting, graceDue := false, graceOver := false, flush := false })
  ∧ (∀ (top : Nat) (u : State), u.dib.nextInterval < 65535 →
      openInterval top u = u.setDib
        { u.dib with
          nextInterval := u.dib.nextInterval + 1
          openIv := some
            ⟨u.dib.jobNo.getD 0, u.dib.nextInterval, top, u.pIntervalLength, top + u.pIntervalLength,
              u.tps.clock, 0, 0, 0, none, 0, 0, [], 0, false, false, false, false, false, none, none, none,
              false⟩ })
  ∧ ∀ u : State,
      let must := fun d : Dib => 16 ≤ d.queue.length ∨ ∃ x ∈ d.queue, x.flush = true
      (¬must u.dib → makeRoom u = (u, true))
      ∧ (must u.dib → u.rws.hasPlace = false → makeRoom u = (u, false))
      ∧ ∀ e rest, must u.dib → u.rws.hasPlace = true → u.dib.queue = e :: rest →
        let ready := e.flush = true ∨ (e.st ≠ .awaiting ∧ (e.iv.final = true ∨ e.graceOver = true))
        let x := if ready then e else { e with iv := { e.iv with unsampled := true } }
        let body := x.body u.tps.clock
        let v := testHead ((u.setRws (writerTest
          { u.rws with
            nextSeq := u.rws.nextSeq + 1
            queue := u.rws.queue ++ [⟨.interval, u.rws.nextSeq, e.iv.job, blocksFor body.length,
              u.tps.clock, body, false, some e.iv.number⟩] })).setDib { u.dib with queue := rest })
        (must v.dib → makeRoom u = (v, false)) ∧ (¬must v.dib → makeRoom u = (v, true))

/-- WRITE TARIFF, its checks in order: the id, the place in use, the bands' count, first bound and rise,
then every bound, rate and price; a tariff that passes replaces whatever its place held, and nothing
else changes (R160). The items and names of a message cannot be out of range: it carries a set of the
sixteen codes, and characters of six bits. -/
def Obligations.WriteTariffReplacesAPlace : Prop :=
  ∀ (dt : Nat) (tag : Byte) (w : TariffWire) (s : State), s.ready →
    let h := s.heard dt
    let c := exec (.writeTariff dt tag w) s
    let refuse := fun why => c = .next (h.answering tag (.writeTariff w) (.refuse why))
    let t := wireTariff w
    let inUse := s.bu.jobSt ≠ .noJob ∧ ∃ j, s.bu.job = some j ∧ j.tariff = t.id
    let good := 1 ≤ t.bands.length ∧ t.bands.length ≤ 8 ∧ (t.bands.map Prod.fst).head? = some 0
      ∧ (t.bands.map Prod.fst).Pairwise (· < ·)
      ∧ (∀ b ∈ t.bands, b.1 ≤ 1000000 ∧ b.2 ≤ 10000000) ∧ (∀ x ∈ t.rates, x ≤ 10000000)
      ∧ (∀ x ∈ t.items, x.price ≤ 10000000)
    (t.id < 1 ∨ 4 < t.id → refuse .range)
    ∧ (1 ≤ t.id → t.id ≤ 4 →
      (inUse → refuse .tariffInUse)
      ∧ (¬inUse → ¬good → refuse .range)
      ∧ (¬inUse → good →
        c = .next ((h.setBu { s.bu with tariffs := s.bu.tariffs.set (t.id - 1) (some t) }).answering
          tag (.writeTariff w) .ok)))

/-- OPEN JOB, its checks in order; once taken the job is OPEN from this second with its seconds, times
and materials at 0 and no breakdown, the builder has its start depth, and the JOB OPENED record joins
the outbox, from which it is handed over at once with its fresh-sector mark where it is alone there and
the writer queue has a place (R165); every entry that the sample queue holds from the earlier job takes
the flush mark, and UNSAMPLED where it was not ready, after which the head is tested for commit, so that
an only entry leaves for the writer queue where there is a place (R121, R122); where the bit depth is
not past the start depth, the sets are all 0, the high-water mark is the start depth and interval 1 is
open at it (R110, R163, R164). -/
def Obligations.OpenJobBeginsAJob : Prop :=
  ∀ (dt : Nat) (tag : Byte) (j : BitVec 24) (i : Byte) (d : BitVec 32) (s : State), s.ready →
    let h := s.heard dt
    let c := exec (.openJob dt tag j i d) s
    let r := Request.openJob j i d
    let refuse := fun why => c = .next (h.answering tag r (.refuse why))
    let x := if d = BitVec.allOnes 32 then (if s.dib.unset then 0 else s.dib.depth) else d.toNat
    let inRange := 1 ≤ j.toNat ∧ j.toNat ≤ 999999 ∧ 1 ≤ i.toNat ∧ i.toNat ≤ 4
      ∧ (d = BitVec.allOnes 32 ∨ d.toNat ≤ 1000000)
    (s.bu.jobSt ≠ .noJob → refuse .state)
    ∧ (s.bu.jobSt = .noJob → ¬inRange → refuse .range)
    ∧ (s.bu.jobSt = .noJob → inRange → s.bu.tariffAt i.toNat = none → refuse .notFound)
    ∧ ∀ tariff, s.bu.jobSt = .noJob → inRange → s.bu.tariffAt i.toNat = some tariff →
      (s.bu.listFree = false → refuse .listFull)
      ∧ (s.bu.listFree = true → (∃ k b, .jobOpened k b ∈ s.bu.outbox) → refuse .busy)
      ∧ (s.bu.listFree = true → (∀ k b, .jobOpened k b ∉ s.bu.outbox) →
        let t := openJob j.toNat i.toNat (if d = BitVec.allOnes 32 then none else some d.toNat) tariff h
        c = .next (t.answering tag r (.ok (be 3 j.toNat ++ be 4 x ++ be 4 s.tps.clock)))
        ∧ t.bu.jobSt = .opened ∧ t.bu.job = some ⟨j.toNat, i.toNat, x, s.tps.clock, none⟩
        ∧ t.bu.openSecs = 0 ∧ t.bu.finalWaiting = false ∧ t.bu.breakdown = none
        ∧ t.bu.sinceFrom = some s.tps.clock
        ∧ t.bu.totals.time = List.replicate 10 0 ∧ t.bu.since.time = List.replicate 10 0
        ∧ t.bu.totals.mats = List.replicate 16 0 ∧ t.bu.since.mats = List.replicate 16 0
        ∧ t.sfe = h.sfe ∧ t.cm = h.cm ∧ t.aha = h.aha ∧ t.hs = h.hs ∧ t.tps = s.tps
        ∧ t.params = s.params ∧ t.bu.tariffs = s.bu.tariffs ∧ t.bu.tickets = s.bu.tickets
        ∧ (let flushed := s.dib.queue.map (fun e => { e with
            flush := true
            iv := { e.iv with
              unsampled := e.iv.unsampled
                || !(e.flush || decide (e.st ≠ .awaiting) && (e.iv.final || e.graceOver)) } })
          let u := (h.setBu { s.bu with
            job := some ⟨j.toNat, i.toNat, 0, s.tps.clock, none⟩, jobSt := .opened, openSecs := 0
            finalWaiting := false, totals := .zero tariff.bands.length
            since := .zero tariff.bands.length, sinceFrom := some s.tps.clock
            breakdown := none }).setDib { s.dib with
              jobNo := some j.toNat, jobStart := x, hwm := x, nextInterval := 1, queue := flushed }
          let v := testHwm (openInterval x (testHead u))
          t = joinOutbox (.jobOpened j.toNat (jobOpenedBody tariff x v.dib.depth v.dib.offset))
            (v.setBu { v.bu with job := v.bu.job.map (fun b => { b with start := x }) })
          ∧ (s.rws.hasPlace = false → s.dib.depth ≤ x →
            s.rws.nextSeq ≤ 4294967295 ∨ s.rws.exhausted = true → t.dib.queue = flushed)
          ∧ ∀ e, flushed = [e] → s.rws.hasPlace = true → s.dib.depth ≤ x → s.bu.outbox ≠ [] →
            t.dib.queue = [] ∧ t.rws = writerTest
              { h.rws with
                nextSeq := s.rws.nextSeq + 1
                queue := s.rws.queue ++ [⟨.interval, s.rws.nextSeq, e.iv.job,
                  blocksFor (e.body s.tps.clock).length, s.tps.clock, e.body s.tps.clock, false,
                  some e.iv.number⟩] })
        ∧ t.dib.jobNo = some j.toNat ∧ t.dib.jobStart = x ∧ t.dib.hwm = max x s.dib.depth
        ∧ (s.bu.outbox ≠ [] → t.bu.outbox = s.bu.outbox
          ++ [.jobOpened j.toNat (jobOpenedBody tariff x s.dib.depth s.dib.offset)])
        ∧ (s.dib.depth ≤ x →
          t.rrc = s.rrc ∧ (s.dib.queue = [] → t.dib.queue = [])
          ∧ (s.dib.queue = [] → s.bu.outbox = [] →
            let body := jobOpenedBody tariff x s.dib.depth s.dib.offset
            (s.rws.hasPlace = true → t.bu.outbox = [] ∧ t.rws = writerTest
              { h.rws with
                nextSeq := s.rws.nextSeq + 1
                queue := s.rws.queue ++ [⟨.jobOpened, s.rws.nextSeq, j.toNat, blocksFor body.length,
                  s.tps.clock, body, true, none⟩] })
            ∧ (s.rws.hasPlace = false → s.rws.nextSeq ≤ 4294967295 ∨ s.rws.exhausted = true →
              t.bu.outbox = [.jobOpened j.toNat body] ∧ t.rws = h.rws))
          ∧ t.bu.totals.footage = List.replicate tariff.bands.length 0
          ∧ t.bu.since.footage = List.replicate tariff.bands.length 0
          ∧ ∃ v, t.dib.openIv = some v ∧ v.job = j.toNat ∧ v.number = 1 ∧ v.top = x
            ∧ v.length = s.pIntervalLength ∧ v.boundary = x + s.pIntervalLength
            ∧ v.openSec = s.tps.clock ∧ v.drillSecs = 0 ∧ v.mats = []))

/-- HOLD JOB takes an OPEN job to SUSPENDED and RELEASE JOB takes it back; each is refused NO JOB with
no job and STATE in every other job state, and neither changes anything else (R152). DECLARE BREAKDOWN
sets a clear mark at the clock's second and keeps a set one; END BREAKDOWN clears it; the one is refused
NO JOB and STATE in NONE and CLOSING, the other NO JOB in NONE, and neither changes anything else (R153,
R154). -/
def Obligations.HoldReleaseAndBreakdownMoveTheJob : Prop :=
  (∀ (dt : Nat) (tag : Byte) (s : State), s.ready →
     let h := s.heard dt
     exec (.holdJob dt tag) s = .next (match s.bu.jobSt with
       | .noJob => h.answering tag .holdJob (.refuse .noJob)
       | .opened => (h.setBu { s.bu with jobSt := .suspended }).answering tag .holdJob .ok
       | .suspended => h.answering tag .holdJob (.refuse .state)
       | .closing => h.answering tag .holdJob (.refuse .state))
     ∧ exec (.releaseJob dt tag) s = .next (match s.bu.jobSt with
       | .noJob => h.answering tag .releaseJob (.refuse .noJob)
       | .opened => h.answering tag .releaseJob (.refuse .state)
       | .suspended => (h.setBu { s.bu with jobSt := .opened }).answering tag .releaseJob .ok
       | .closing => h.answering tag .releaseJob (.refuse .state)))
  ∧ (∀ (dt : Nat) (tag : Byte) (s : State), s.ready →
       let h := s.heard dt
       exec (.declareBreakdown dt tag) s = .next (
         if s.bu.jobSt = .noJob then h.answering tag .declareBreakdown (.refuse .noJob)
         else if s.bu.jobSt = .closing then h.answering tag .declareBreakdown (.refuse .state)
         else (h.setBu { s.bu with breakdown := match s.bu.breakdown with
           | none => some s.tps.clock
           | some x => some x }).answering tag .declareBreakdown .ok)
       ∧ exec (.endBreakdown dt tag) s = .next (
         if s.bu.jobSt = .noJob then h.answering tag .endBreakdown (.refuse .noJob)
         else (h.setBu { s.bu with breakdown := none }).answering tag .endBreakdown .ok))

/-- ADD MATERIAL, its checks in order; once taken the quantity joins the item in both sets and the open
interval's lines, and the reply carries the item's two totals (R113, R151). In the interval it joins the
item's line, or makes a new line while there are fewer than four, or else joins the other quantity, each
held at 999,999,999; and a connection's peak torque raises the interval's peak (R113). -/
def Obligations.MaterialJoinsBothSets : Prop :=
  (∀ (dt : Nat) (tag i : Byte) (q : BitVec 16) (s : State), s.ready →
     let h := s.heard dt
     let c := exec (.addMaterial dt tag i q) s
     let refuse := fun why => c = .next (h.answering tag (.addMaterial i q) (.refuse why))
     let defined := ∃ t x, s.bu.jobTariff = some t ∧ x ∈ t.items ∧ x.code = i.toNat
     let total := s.bu.totals.mats.getD (i.toNat - 1) 0
     (s.bu.jobSt = .noJob → refuse .noJob)
     ∧ (s.bu.jobSt = .closing → refuse .state)
     ∧ (s.bu.jobSt = .opened ∨ s.bu.jobSt = .suspended →
       (q.toNat < 1 ∨ 9999 < q.toNat → refuse .range)
       ∧ (1 ≤ q.toNat → q.toNat ≤ 9999 →
         (i.toNat < 1 ∨ 16 < i.toNat ∨ ¬defined → refuse .unknownItem)
         ∧ (1 ≤ i.toNat → i.toNat ≤ 16 → defined →
           (4294967295 < total + q.toNat → refuse .range)
           ∧ (total + q.toNat ≤ 4294967295 →
             let more := fun a : Accum =>
               { a with mats := a.mats.modify (i.toNat - 1) (fun x => min (x + q.toNat) 4294967295) }
             let b := { s.bu with totals := more s.bu.totals, since := more s.bu.since }
             c = .next (((h.setBu b).setDib
               { s.dib with openIv := s.dib.openIv.map (addMat i.toNat q.toNat) }).answering
                 tag (.addMaterial i q) (.ok (be 4 (b.totals.mats.getD (i.toNat - 1) 0)
                   ++ be 4 (b.since.mats.getD (i.toNat - 1) 0)))))))))
  ∧ (∀ (v : Interval) (i q : Nat),
      ((∃ x ∈ v.mats, x.1 = i) → addMat i q v = { v with
        mats := v.mats.map (fun x => (x.1, if x.1 = i then min (x.2 + q) 999999999 else x.2)) })
      ∧ ((∀ x ∈ v.mats, x.1 ≠ i) →
        (v.mats.length < 4 →
          addMat i q v = { v with mats := v.mats ++ [(i, min q 999999999)] })
        ∧ (4 ≤ v.mats.length → addMat i q v = { v with other := min (v.other + q) 999999999 })))
  ∧ ∀ u : State, dibTorque none u = u
      ∧ ∀ x, dibTorque (some x) u = u.setDib
        { u.dib with
          openIv := u.dib.openIv.map (fun v => { v with
            peak := some (match v.peak with | none => x | some y => max x y) }) }

/-- ISSUE TICKET: NO JOB, STATE in CLOSING, LIST FULL with no place; otherwise an INTERIM ticket of the
since-last-ticket set joins the list, its record the outbox, the set begins again at 0 from this second,
and TICKET READY is raised. A ticket's total is the sum of its lines' charges, each a quantity times a
rate rounded half up to a cent, each and the sum held at 999,999,999.99, and it is marked SATURATED
where one of them was held. Its lines are, in this order, exactly those of the bands, the categories and
the items whose quantity in the set is not 0, each with the tariff's own rate (R167, R168, R169). A
record that joins an empty outbox is handed over at once, leaves the outbox where the store takes it,
and stores the number it took with its ticket; it waits where the store does not, and behind another it
waits its turn (R165). -/
def Obligations.IssueTicketBillsTheSet : Prop :=
  (∀ (dt : Nat) (tag : Byte) (s : State), s.ready →
     let h := s.heard dt
     let c := exec (.issueTicket dt tag) s
     let refuse := fun why => c = .next (h.answering tag .issueTicket (.refuse why))
     (s.bu.jobSt = .noJob → refuse .noJob)
     ∧ (s.bu.jobSt = .closing → refuse .state)
     ∧ (s.bu.jobSt = .opened ∨ s.bu.jobSt = .suspended →
       (s.bu.listFree = false → refuse .listFull)
       ∧ ∀ j t, s.bu.listFree = true → s.bu.job = some j → s.bu.jobTariff = some t →
         let k := mkTicket s.bu j t .interim s.tps.clock
         let u := (joinOutbox (.ticket k.number j.number (ticketBody k t s.bu.since)) (h.setBu
           { s.bu with
             since := .zero t.bands.length, sinceFrom := some s.tps.clock, tickets := s.bu.tickets ++ [k]
             nextTicket := min (s.bu.nextTicket + 1) 4294967295 })).raise
           (.ticketReady j.number k.number .interim k.total k.saturated)
         c = .next (u.answering tag .issueTicket
           (.ok (be 4 k.number ++ be 4 k.fromSec ++ be 4 s.tps.clock ++ be 5 k.total)))))
  ∧ (∀ (b : Bu) (j : JobRec) (t : Tariff) (kind : TicketKind) (sec : Nat),
     let k := mkTicket b j t kind sec
     let a := b.since
     let charge := fun l : Line => match l.what with
       | .band _ _ => (l.qty * l.rate + 500) / 1000
       | .time _ => (l.qty * l.rate + 1800) / 3600
       | .item _ _ => (l.qty * l.rate + 5) / 10
     k.lines =
       (List.range t.bands.length).filterMap (fun i =>
         match t.bands[i]?, a.footage[i]? with
         | some b, some q => if q = 0 then none else
             some ⟨.band (i + 1) b.1, q, b.2, min 99999999999 ((q * b.2 + 500) / 1000)⟩
         | _, _ => none)
       ++ allCategories.filterMap (fun c =>
         match t.rates[c.code - 1]?, a.time[c.code - 1]? with
         | some rate, some q => if q = 0 then none else
             some ⟨.time c, q, rate, min 99999999999 ((q * rate + 1800) / 3600)⟩
         | _, _ => none)
       ++ (List.range 16).filterMap (fun n =>
         match t.items.find? (fun x => x.code == n + 1) with
         | some x =>
           let q := a.mats.getD n 0
           if q = 0 then none else
             some ⟨.item (n + 1) x.unit, q, x.price, min 99999999999 ((q * x.price + 5) / 10)⟩
         | none => none)
     ∧ (∀ l ∈ k.lines, l.qty ≠ 0 ∧ l.charge = min 99999999999 (charge l))
     ∧ k.total = min (k.lines.map Line.charge).sum 99999999999
     ∧ (k.saturated = true ↔
       (∃ l ∈ k.lines, 99999999999 < charge l) ∨ 99999999999 < (k.lines.map Line.charge).sum)
     ∧ k.number = b.nextTicket ∧ k.kind = kind ∧ k.job = j.number ∧ k.tariff = j.tariff
     ∧ (∀ x, b.sinceFrom = some x → k.fromSec = x) ∧ k.toSec = sec ∧ k.recSeq = none)
  ∧ ∀ (r : OutRec) (u : State),
      let joined := u.setBu { u.bu with outbox := u.bu.outbox ++ [r] }
      let given := match r with
        | .jobOpened job body => handOver .jobOpened job body true none joined
        | .ticket number job body => handOver .ticket job body false (some number) joined
      let tickets := fun q : Nat => match r with
        | .jobOpened _ _ => u.bu.tickets
        | .ticket number _ _ => u.bu.tickets.map (fun t => { t with
            recSeq := if t.number = number then some q else t.recSeq })
      (u.bu.outbox ≠ [] → joinOutbox r u = joined)
      ∧ (∀ v, u.bu.outbox = [] → given = (v, none) → joinOutbox r u = v)
      ∧ ∀ v q, u.bu.outbox = [] → given = (v, some q) →
        joinOutbox r u = v.setBu { u.bu with outbox := [], tickets := tickets q }

/-- CLOSE JOB: NO JOB, STATE in CLOSING, BUSY where the open interval needs room and there is none;
otherwise the interval ends, closed at the mark with the head forced out where that is needed (R115) or
discarded where nothing was drilled, the close second is stored, the breakdown mark is cleared, and the
FINAL ticket is built at once with the job back to NONE, or, the list full, the job stays CLOSING and
the reply is ACCEPTED (R120, R170, R171). The FINAL ticket takes the since-last-ticket set, which begins
again at 0, and the next number; its record joins the outbox, and TICKET READY is raised (R166, R167;
O41 spells the ticket and the outbox). That the writer queue counts as full with the sequence numbers
exhausted is the model's (log 46). -/
def Obligations.CloseJobBillsAndEnds : Prop :=
  ∀ (dt : Nat) (tag : Byte) (s : State), s.ready →
    let h := s.heard dt
    let c := exec (.closeJob dt tag) s
    let refuse := fun why => c = .next (h.answering tag .closeJob (.refuse why))
    (s.bu.jobSt = .noJob → refuse .noJob)
    ∧ (s.bu.jobSt = .closing → refuse .state)
    ∧ (s.bu.jobSt = .opened ∨ s.bu.jobSt = .suspended →
      (s.dib.openIv = none → dibCloseJob h = some h)
      ∧ (∀ iv, s.dib.openIv = some iv → s.dib.hwm ≤ iv.top →
        dibCloseJob h = some (h.setDib { s.dib with openIv := none }))
      ∧ (∀ iv, s.dib.openIv = some iv → iv.top < s.dib.hwm → 16 ≤ s.dib.queue.length →
        s.rws.hasPlace = false → refuse .busy)
      ∧ (∀ iv, s.dib.openIv = some iv → iv.top < s.dib.hwm → s.dib.queue.length < 16 →
        (∀ e ∈ s.dib.queue, e.flush = false) →
        dibCloseJob h = some ((h.setDib
          { s.dib with queue := s.dib.queue ++ [closedEntry iv s.dib.hwm h], openIv := none }).raise
            (.intervalClosed iv.job iv.number iv.top s.dib.hwm (closedEntry iv s.dib.hwm h).rop
              iv.meanPressure (BitVec.ofNat 8 (iv.flagByte false)))))
      ∧ (∀ iv u, s.dib.openIv = some iv → iv.top < s.dib.hwm → makeRoom h = (u, false) →
        dibCloseJob h = none)
      ∧ (∀ iv u, s.dib.openIv = some iv → iv.top < s.dib.hwm → makeRoom h = (u, true) →
        let e := closedEntry iv s.dib.hwm u
        dibCloseJob h = some ((u.setDib
          { u.dib with queue := u.dib.queue ++ [e], openIv := none }).raise
            (.intervalClosed iv.job iv.number iv.top s.dib.hwm e.rop iv.meanPressure
              (BitVec.ofNat 8 (iv.flagByte false)))))
      ∧ (dibCloseJob h = none → refuse .busy)
      ∧ ∀ u j, dibCloseJob h = some u → s.bu.job = some j →
        let closing := u.setBu
          { u.bu with
            job := some { j with closeSec := some s.tps.clock }
            jobSt := .closing, finalWaiting := true, breakdown := none }
        (s.bu.listFree = false →
          c = .next (closing.answering tag .closeJob (.accept (be 4 s.tps.clock))))
        ∧ ∀ t, s.bu.listFree = true → s.bu.jobTariff = some t →
          let k := mkTicket s.bu j t .final s.tps.clock
          let f := (joinOutbox (.ticket k.number j.number (ticketBody k t s.bu.since)) (closing.setBu
            { closing.bu with
              since := .zero t.bands.length, sinceFrom := some s.tps.clock, tickets := s.bu.tickets ++ [k]
              nextTicket := min (s.bu.nextTicket + 1) 4294967295 })).raise
                (.ticketReady j.number k.number .final k.total k.saturated)
          c = .next ((f.setBu { f.bu with finalWaiting := false, jobSt := .noJob }).answering
              tag .closeJob (.ok (be 4 s.tps.clock ++ (be 4 k.number ++ be 5 k.total))))
          ∧ f.bu.tickets.map Ticket.number = s.bu.tickets.map Ticket.number ++ [k.number])

/-- COLLECT TICKET: number 0 RANGE, a ticket not in the list NOT FOUND, one whose record has no sequence
number BUSY unless the numbers are exhausted; otherwise it leaves the list, with its record where that
still waits, a FINAL ticket that waits takes the place at once, and the reply shows the list (R171,
R174). That ticket runs to the close second and takes the since-last-ticket set, which begins again at
0; its record joins the outbox, TICKET READY is raised, and the job is NONE (R167, R171; O41 spells the
ticket and the outbox). -/
def Obligations.CollectTicketFreesItsPlace : Prop :=
  ∀ (dt : Nat) (tag : Byte) (n : BitVec 32) (s : State), s.ready →
    let h := s.heard dt
    let c := exec (.collectTicket dt tag n) s
    let refuse := fun why => c = .next (h.answering tag (.collectTicket n) (.refuse why))
    (n = 0 → refuse .range)
    ∧ (n ≠ 0 → (∀ k ∈ s.bu.tickets, k.number ≠ n.toNat) → refuse .notFound)
    ∧ ∀ k, n ≠ 0 → s.bu.tickets.find? (fun k => k.number == n.toNat) = some k →
      (k.recSeq = none → s.rws.exhausted = false → refuse .busy)
      ∧ (k.recSeq ≠ none ∨ s.rws.exhausted = true →
        let t := h.setBu
          { s.bu with
            tickets := s.bu.tickets.filter (fun k => k.number != n.toNat)
            outbox := s.bu.outbox.filter (fun
              | .ticket x _ _ => x != n.toNat
              | .jobOpened _ _ => true) }
        (¬(s.bu.jobSt = .closing ∧ s.bu.finalWaiting = true) →
          c = .next (t.answering tag (.collectTicket n) (.ok (ticketList t.bu))))
        ∧ (s.bu.jobSt = .closing → s.bu.finalWaiting = true →
          let u := testFinal t
          c = .next (u.answering tag (.collectTicket n) (.ok (ticketList u.bu)))
          ∧ (t.bu.listFree = true → u.bu.jobSt = .noJob)
          ∧ (t.bu.listFree = false → c = .next (t.answering tag (.collectTicket n) (.ok (ticketList t.bu))))
          ∧ ∀ j tf sec, t.bu.listFree = true → s.bu.job = some j → s.bu.jobTariff = some tf →
            j.closeSec = some sec →
            let k := mkTicket t.bu j tf .final sec
            let f := (joinOutbox (.ticket k.number j.number (ticketBody k tf s.bu.since)) (t.setBu
              { t.bu with
                since := .zero tf.bands.length, sinceFrom := some sec, tickets := t.bu.tickets ++ [k]
                nextTicket := min (s.bu.nextTicket + 1) 4294967295 })).raise
                  (.ticketReady j.number k.number .final k.total k.saturated)
            let v := f.setBu { f.bu with finalWaiting := false, jobSt := .noJob }
            c = .next (v.answering tag (.collectTicket n) (.ok (ticketList v.bu)))))

/-! ## The pack and the rig's signals -/

/-- MANUAL MOVE and DIVERTER, their checks in order; a jog or a diverter motion whose end switch is on
is DONE with nothing requested. A jog of a function other than INDEX that finds the arbiter free is
granted at once for its jog length, and waits in its place behind a higher client; a diverter motion is
granted at once whatever runs, its holder suspended on the stack with its remaining time, an index
motion's guard taken down (R63 to R66, R73, R74). A request of any kind and client: one whose target is
met is COMPLETE at once; with no holder it is granted; above the holder it is granted with the holder
suspended; below it it waits in chain order (R64, R65). A grant finds its target met, or drives the
valve for the full or the remaining timeout, an index motion behind its guard and its wait for INDEX
LOCKED (R66, R71, R72); that a motion not yet driven keeps nothing of that wait is the model's choice
(log 43), and so is which step is a suspended motion's own: one that had begun when it was suspended
(log 29). A release passes the grant to the higher of the stack's top and the first that waits, and on
where that one ends at once (R68); a withdrawal removes its client wherever it stands (R70). That
DIVERTER is tested for BUSY before its code is the model's reading (log 21). -/
def Obligations.MovesOfThePackAreRequested : Prop :=
  (∀ (dt : Nat) (tag : Byte) (s : State), s.ready →
     let h := s.heard dt
     (∀ (f d : Byte) (ms : BitVec 16),
       let c := exec (.manualMove dt tag f d ms) s
       let r := Request.manualMove f d ms
       let refuse := fun why => c = .next (h.answering tag r (.refuse why))
       let busy := s.hs.seq = .running ∨ s.hs.seq = .waiting
       (busy → refuse .state)
       ∧ (¬busy → s.aha.stands .manual = true → refuse .busy)
       ∧ (¬busy → s.aha.stands .manual = false →
         (Func.ofCode f = none ∨ Dir.ofCode d = none ∨ ms.toNat < 100 ∨ 5000 < ms.toNat → refuse .range)
         ∧ ∀ fn dir, Func.ofCode f = some fn → Dir.ofCode d = some dir → 100 ≤ ms.toNat →
           ms.toNat ≤ 5000 →
           let q := jogReq fn dir ms.toNat
           let ends := ∃ sw, endSwitch fn dir = some sw ∧ h.on sw = true
           (ends → c = .next (h.answering tag r .ok))
           ∧ (¬ends → c = .next ((settle (requestMotion q h)).replying tag r .accept))
           ∧ (¬ends → fn ≠ .index → s.aha = ⟨none, [], [], none⟩ →
             c = .next ((h.setAha
               ⟨some { q with left := some ms.toNat }, [], [], some (fn, dir)⟩).answering tag r .accept))
           ∧ ∀ held, ¬ends → fn ≠ .index → h.aha.holder = some held →
             c = .next ((h.setAha
               { h.aha with waiting := insertWaiting q s.aha.waiting }).answering tag r .accept)))
     ∧ ∀ d : Byte,
       let c := exec (.diverter dt tag d) s
       let refuse := fun why => c = .next (h.answering tag (.diverter d) (.refuse why))
       (s.aha.stands .wellControl = true → refuse .busy)
       ∧ (s.aha.stands .wellControl = false →
         (d ≠ 1 → d ≠ 2 → refuse .range)
         ∧ ∀ dir sw, (d = 1 ∧ dir = .first ∧ sw = .diverterOpen)
             ∨ (d = 2 ∧ dir = .second ∧ sw = .diverterClosed) →
           let q := { divertReq dir true false with left := some 8000 }
           (h.on sw = true → c = .next (h.answering tag (.diverter d) .ok))
           ∧ (h.on sw = false → s.aha.holder = none →
             c = .next ((h.setAha
               { h.aha with holder := some q, valve := some (.diverter, dir) }).answering
                 tag (.diverter d) .accept))
           ∧ ∀ held, h.on sw = false → h.aha.holder = some held →
             c = .next (((if held.fn = .index then disarmGroup .g1 h else h).setAha
               ⟨some q, { held with ownStep := held.ownStep && s.rrc.stepMark } :: s.aha.stack,
                 s.aha.waiting, some (.diverter, dir)⟩).answering
                 tag (.diverter d) .accept)))
  ∧ (∀ (q : Req) (u : State), (∀ x ∈ u.aha.standing, x.client ≠ q.client) →
      (targetMet u q = true → requestMotion q u = u.report (.complete q q.metEnd))
      ∧ (targetMet u q = false → u.aha.holder = none →
        (∀ v, tryGrant q u = (v, true) → requestMotion q u = v)
        ∧ ∀ v, tryGrant q u = (v, false) → requestMotion q u = passOn 4 v)
      ∧ ∀ held, targetMet u q = false → u.aha.holder = some held →
        (held.client.rank ≤ q.client.rank → requestMotion q u =
          u.setAha { u.aha with waiting := insertWaiting q u.aha.waiting })
        ∧ (q.client.rank < held.client.rank →
          let freed := if held.fn = .index then
            u.setSfe { u.sfe with g1 := ⟨0, 0, 0, u.sfe.g1.flag⟩ } else u
          let kept := { held with ownStep := held.ownStep && u.rrc.stepMark }
          let w := (freed.setAha ⟨none, kept :: u.aha.stack, u.aha.waiting, none⟩).report
            (.suspended kept)
          (∀ v, tryGrant q w = (v, true) → requestMotion q u = v)
          ∧ ∀ v, tryGrant q w = (v, false) → requestMotion q u = passOn 4 v))
  ∧ (∀ (q : Req) (u : State),
      let told := u.report (if q.left = none then .granted q else .resumed q)
      let guard := switchMask .armHome ||| switchMask .stopChainHealthy
      let m := (u.sfe.debounced ^^^ guard) &&& guard
      let saved := match q.lockWait with | some x => x | none => q.left
      let armed := told.setSfe { u.sfe with g1 := ⟨guard, guard, 0, u.sfe.g1.flag⟩ }
      (targetMet u q = true → tryGrant q u = (u.report (.complete q q.metEnd), false))
      ∧ (targetMet u q = false → q.fn ≠ .index → tryGrant q u = (told.setAha
        { u.aha with
          holder := some { q with left := some (q.left.getD q.timeout) }
          valve := some (q.fn, q.dir) }, true))
      ∧ (targetMet u q = false → q.fn = .index →
        (m ≠ 0 → tryGrant q u =
          ((u.setSfe { u.sfe with g1 := ⟨0, 0, 0, true⟩ }).report (.failed q .guard m), false))
        ∧ (m = 0 → u.on .indexLocked = false → tryGrant q u = (armed.setAha
          { u.aha with
            holder := some
              { q with
                left := some 4000
                lockWait := some (if q.client = .loader then none else saved) } }, true))
        ∧ (m = 0 → u.on .indexLocked = true →
          let route : StepDir × Nat := match q.target with
            | .slot n => routeTo u.rrc.index n
            | _ => ((match q.dir with | .first => .ascending | .second => .descending), 1)
          let dir : Dir := match route.1 with | .ascending => .first | .descending => .second
          let full := match q.target with | .jog _ => q.jogMs | _ => 4000 + 2000 * route.2
          tryGrant q u = ((armed.setAha
            { u.aha with
              holder := some
                { q with
                  dir := dir, route := some route, ownStep := true, lockWait := none
                  left := some (if q.client = .loader then full else saved.getD full) }
              valve := some (.index, dir) }).setRrc { u.rrc with stepDir := route.1 }, true))))
  ∧ (∀ (q : Req) (u : State),
      (∀ sw, q.target = .switch sw ∨ q.target = .jog (some sw) → targetMet u q = u.on sw)
      ∧ (∀ n, q.target = .slot n →
        (targetMet u q = true ↔ u.rrc.index = n ∧ u.on .indexLocked = true))
      ∧ (q.target = .jog none → targetMet u q = q.moved))
  ∧ (∀ (n : Nat) (u : State),
      (u.aha.stack = [] → u.aha.waiting = [] → passOn n u = u)
      ∧ ∀ (c : Req) (stack waiting : List Req),
        (u.aha.stack = c :: stack ∧ u.aha.waiting = waiting ∧ ∀ w ∈ waiting.head?,
          c.client.rank < w.client.rank)
        ∨ (u.aha.waiting = c :: waiting ∧ u.aha.stack = stack ∧ ∀ t ∈ stack.head?,
          c.client.rank ≤ t.client.rank) →
        let without := u.setAha { u.aha with stack := stack, waiting := waiting }
        (∀ v, tryGrant c without = (v, true) → passOn (n + 1) u = v)
        ∧ ∀ v, tryGrant c without = (v, false) → passOn (n + 1) u = passOn n v)
  ∧ (∀ (u : State) (held : Req), u.aha.holder = some held →
      let freed := (if held.fn = .index then
        u.setSfe { u.sfe with g1 := ⟨0, 0, 0, u.sfe.g1.flag⟩ } else u).setAha
          { u.aha with holder := none, valve := none }
      (∀ rep, endHolder rep u = passOn 4 (freed.report rep))
      ∧ withdraw held.client u = passOn 4 freed)
  ∧ (∀ (c : Client) (u : State), (∀ held, u.aha.holder = some held → held.client ≠ c) →
      withdraw c u = u.setAha
        { u.aha with
          stack := u.aha.stack.filter (fun q => q.client != c)
          waiting := u.aha.waiting.filter (fun q => q.client != c) })
  ∧ ∀ (q w : Req) (l : List Req), insertWaiting q [] = [q]
      ∧ insertWaiting q (w :: l) =
        if q.client.rank < w.client.rank then q :: w :: l else w :: insertWaiting q l

/-- A raw change restarts the stability timer of a switch at 20 ms, or cancels it where the raw input
has come back to the debounced value; a raw input that does not change does nothing; and while the part
is held in reset only the wiring moves (R1, R192; log 3). The taken changes of the switches that blocks
read, with no group selecting them: HEAD CONNECTED decides the depth state, and an entry to LIVE takes
the depth or absorbs a slip (R104, R106); INDEX LOCKED begins or counts a step of the carousel (R53), on
which an index motion completes, is driven after its wait, or fails by its guard, and an index jog ends
or, suspended, has its end met, where the step was its own (R67, R71, R72, R73; log 29); at ARM HOME the
loader tests, and requests or withdraws (R58), in start-up too (log 34), but stays where it holds the
grant, waiting for INDEX LOCKED or running (log 42). That a motion which ends at ARM HOME ends before
the loader's test is the model's order (log 8). -/
def Obligations.RawChangesRunTheStabilityTimer : Prop :=
  (∀ (dt : Nat) (sw : Switch) (on : Bool) (s : State),
     let h := s.elapse dt
     let c := exec (.switchRawChange dt sw on) s
     let f := { h.sfe with raw := putSwitch s.sfe.raw sw on }
     (s.tps.phase = .off → c = .next (s.setSfe { s.sfe with raw := putSwitch s.sfe.raw sw on }))
     ∧ (s.awake →
       (inSet s.sfe.raw sw = on → c = .next (lcService h))
       ∧ (inSet s.sfe.raw sw ≠ on → inSet h.sfe.acquired sw = true → inSet h.sfe.debounced sw = on →
         c = .next (lcService (h.setSfe
           { f with stab := h.sfe.stab.set (switchIndex sw) none })))
       ∧ (inSet s.sfe.raw sw ≠ on → inSet h.sfe.acquired sw = false ∨ inSet h.sfe.debounced sw ≠ on →
         c = .next (lcService (h.setSfe
           { f with stab := h.sfe.stab.set (switchIndex sw) (some 20) })))))
  ∧ (∀ u : State,
      let want : DState := if u.hs.depthHold then .held else if u.dib.encFaulted then .fault
        else if u.on .headConnected then .live else .held
      let fig := (u.dib.lenLast : Int) - (u.dib.headLast.getD 0 : Nat) - u.dib.offset
      let diff := fig - u.dib.depth
      (want = u.dib.dstate → decideDepth u = u)
      ∧ (want ≠ u.dib.dstate → want ≠ .live →
        decideDepth u = u.setDib { u.dib with dstate := want })
      ∧ (want ≠ u.dib.dstate → want = .live →
        (u.dib.unset = true → decideDepth u = testHwm (u.setDib
          { u.dib with dstate := .live, unset := false, depth := fig.toNat }))
        ∧ (u.dib.unset = false → -100 ≤ diff → diff ≤ 100 → decideDepth u = testHwm (u.setDib
          { u.dib with dstate := .live, depth := fig.toNat }))
        ∧ (u.dib.unset = false → diff < -100 ∨ 100 < diff → decideDepth u = (u.setDib
          { u.dib with
            dstate := .live, offset := u.dib.offset + diff
            openIv := if u.bu.jobSt = .opened ∨ u.bu.jobSt = .suspended then
                u.dib.openIv.map (fun v => { v with slip := true })
              else u.dib.openIv }).raise
                (.depthSlip diff (u.dib.offset + diff) u.dib.depth))))
  ∧ (∀ (u : State) (o : LoadOp), u.rrc.loader = some o →
      let may := u.on .armHome = true ∧ u.rrc.hold = false
      let runs := ∃ q, u.aha.holder = some q ∧ q.client = .loader
      let waits := ∃ q ∈ u.aha.stack ++ u.aha.waiting, q.client = .loader
      let phase := fun p => u.setRrc { u.rrc with loader := some { o with phase := p } }
      (o.phase = .waiting → ¬may → loaderTest u = u)
      ∧ (o.phase = .waiting → may →
        loaderTest u = requestMotion (u.indexReq .loader o.slot) (phase .requested))
      ∧ (o.phase = .requested → may → loaderTest u = u)
      ∧ (o.phase = .requested → ¬may →
        (¬runs → ¬waits → loaderTest u = u)
        ∧ (¬runs → waits → loaderTest u = (phase .waiting).setAha
          { u.aha with
            stack := u.aha.stack.filter (fun q => q.client != .loader)
            waiting := u.aha.waiting.filter (fun q => q.client != .loader) })
        ∧ (runs → u.rrc.hold = false → loaderTest u = u)
        ∧ (runs → u.rrc.hold = true → loaderTest u = withdraw .loader (phase .waiting))))
  ∧ ∀ (dt : Nat) (sw : Switch) (s : State), s.awake →
      let h := s.elapse dt
      let c := exec (.switchChangeTaken dt sw) s
      let on := inSet s.sfe.raw sw
      let d := putSwitch h.sfe.debounced sw on
      let u := h.setSfe { h.sfe with debounced := d, stab := h.sfe.stab.set (switchIndex sw) none }
      let due := inSet h.sfe.acquired sw = true ∧ h.sfe.stab.getD (switchIndex sw) none = some 0
        ∧ on ≠ inSet h.sfe.debounced sw ∧ inSet s.sfe.g0.sel sw = false
        ∧ inSet s.sfe.g1.sel sw = false ∧ inSet s.sfe.g2.sel sw = false
        ∧ inSet s.sfe.g3.sel sw = false
      (due → sw = .headConnected →
        (∀ o, s.hs.op = some o → o.stage ∉ [.unscrew, .free, .reconnect, .make]) →
        c = .next (lcService (decideDepth u)))
      ∧ (due → sw = .armHome →
        (s.rrc.loader = none → on = false → c = .next (lcService u))
        ∧ ((∀ r, h.aha.holder = some r → r.target ≠ .switch sw ∧ r.target ≠ .jog (some sw)) →
          c = .next (finish (settle (loaderTest u))))
        ∧ ∀ r, on = true → h.aha.holder = some r → r.target = .switch sw →
          c = .next (finish (settle (loaderTest (endHolder (.complete r .target) u)))))
      ∧ (due → sw = .indexLocked →
        let i := if s.rrc.stepMark then
            (s.rrc.index + (match s.rrc.stepDir with | .ascending => 1 | .descending => 39)) % 40
          else s.rrc.index
        let met := fun q : Req =>
          if s.rrc.stepMark = true ∧ q.client = .manual ∧ q.ownStep = true then { q with moved := true }
          else q
        let a := { h.aha with
          holder := h.aha.holder.map met, stack := h.aha.stack.map met
          waiting := h.aha.waiting.map met }
        let v := (u.setRrc { s.rrc with index := i, stepMark := false }).setAha a
        let g := switchMask .armHome ||| switchMask .stopChainHealthy
        let m := (d ^^^ g) &&& g
        (on = false → c = .next (lcService (u.setRrc { s.rrc with stepMark := true })))
        ∧ (on = true →
          ((∀ r, h.aha.holder = some r → r.fn ≠ .index) → c = .next (lcService v))
          ∧ ∀ r n, h.aha.holder = some r → r.fn = .index → r.target = .slot n →
            (r.client = .manual → r.ownStep = false) →
            (s.rrc.stepMark = true ∨ r.lockWait ≠ none → i = n →
              c = .next (finish (settle (endHolder (.complete r .target) v))))
            ∧ (r.lockWait = none → s.rrc.stepMark = false ∨ i ≠ n → c = .next (lcService v))
            ∧ ∀ kept, r.lockWait = some kept → i ≠ n →
              let route := routeTo i n
              let full := 4000 + 2000 * route.2
              let dir : Dir := match route.1 with | .ascending => .first | .descending => .second
              (m = 0 → c = .next (lcService (((v.setSfe
                  { u.sfe with g1 := ⟨g, g, 0, s.sfe.g1.flag⟩ }).setAha
                { a with
                  holder := some
                    { r with
                      dir := dir, route := some route, ownStep := true, lockWait := none
                      left := some (if r.client = .loader then full else kept.getD full) }
                  valve := some (.index, dir) }).setRrc { v.rrc with stepDir := route.1 })))
              ∧ (m ≠ 0 → c = .next (finish (settle (endHolder (.failed r .guard m)
                (v.setSfe { u.sfe with g1 := ⟨g, g, m, true⟩ }))))))
        ∧ ∀ r, on = true → s.rrc.stepMark = true → h.aha.holder = some r → r.client = .manual →
          r.fn = .index → r.target = .jog none → r.lockWait = none → r.ownStep = true →
          c = .next (finish (settle (endHolder (.complete { r with moved := true } .endSwitch) v))))

/-- A change is taken when the switch is acquired and its timer has run out with the raw input still
differing: the debounced value takes the raw value, and no other switch's does. For a switch other than
HEAD CONNECTED, INDEX LOCKED and ARM HOME, taken off, group 3 where it alone selects the switch is
evaluated, and from MATCH to MISMATCH sets its flag and raises GROUP MISMATCH; group 0 where it alone
does holds an operation in flight with GUARD. Group 1's event fails the running index motion with GUARD,
and a HANDLING one's operation goes HELD with CAROUSEL; with no index motion driven it does nothing
(R72, R93); ARM HOME taken off takes a loader's request that does not hold back to waiting before that
event (R58). Where groups 0 and 1 both select the switch, as STOP CHAIN HEALTHY in an index stage, group
0's event is taken first, the groups in their order (DEDUCED: log 8): the operation goes HELD with
GUARD, its request is withdrawn and group 1 disarmed, OP HELD is raised once, and group 1's event then
finds no index motion of it (R92, R94). Group 2's event aborts a hole-watch entry with cause SWITCH, and
in HOLE WATCH raises DRIFT with direction SWITCH (R37, R39); a switch that a group in MISMATCH selects
raises no event of it. Taken on, with no group selecting it, a switch completes the running motion whose
target it is, and no other (R1, R3, R12, R13, R15, R67, R92). -/
def Obligations.TakenChangesReachTheirReaders : Prop :=
  ∀ (dt : Nat) (sw : Switch) (s : State), s.awake →
    let h := s.elapse dt
    let c := exec (.switchChangeTaken dt sw) s
    let on := inSet s.sfe.raw sw
    let due := inSet h.sfe.acquired sw = true ∧ h.sfe.stab.getD (switchIndex sw) none = some 0
      ∧ on ≠ inSet h.sfe.debounced sw
    let d := putSwitch h.sfe.debounced sw on
    let f := { h.sfe with debounced := d, stab := h.sfe.stab.set (switchIndex sw) none }
    let plain := sw ≠ .headConnected ∧ sw ≠ .indexLocked ∧ sw ≠ .armHome
    let mism := fun g : Group => (d ^^^ g.pat) &&& g.sel
    let taken := fun g : Group =>
      { g with mism := mism g, flag := g.flag || (g.mism == 0 && mism g != 0) }
    let loaderOff := fun u : State => match s.rrc.loader with
      | none => u
      | some o =>
        if sw = .armHome ∧ o.phase = .requested ∧ s.aha.stands .loader = true
            ∧ s.aha.holds .loader = false then
          (u.setRrc { u.rrc with loader := some { o with phase := .waiting } }).setAha
            { u.aha with
              stack := u.aha.stack.filter (fun r => r.client != .loader)
              waiting := u.aha.waiting.filter (fun r => r.client != .loader) }
        else u
    (¬due → c = .next (lcService h))
    ∧ (due → ∃ t, c = .next t ∧ t.sfe.debounced = d ∧ t.sfe.raw = s.sfe.raw
      ∧ t.sfe.acquired = h.sfe.acquired ∧ t.sfe.stab = f.stab)
    ∧ (due → plain → inSet s.sfe.g0.sel sw = false → inSet s.sfe.g1.sel sw = false →
      inSet s.sfe.g2.sel sw = false →
      (on = false → inSet s.sfe.g3.sel sw = false → c = .next (lcService (h.setSfe f)))
      ∧ (on = false → inSet s.sfe.g3.sel sw = true →
        let t := h.setSfe { f with g3 := taken s.sfe.g3 }
        c = .next (lcService (if s.sfe.g3.mism = 0 ∧ mism s.sfe.g3 ≠ 0 then
          t.raise (.groupMismatch (mism s.sfe.g3) h.sfe.ms) else t)))
      ∧ ∀ r, on = true → inSet s.sfe.g3.sel sw = false → h.aha.holder = some r →
        (r.target = .switch sw ∨ r.target = .jog (some sw) →
          c = .next (finish (settle (endHolder (.complete r r.metEnd) (h.setSfe f)))))
        ∧ (r.target ≠ .switch sw → r.target ≠ .jog (some sw) → c = .next (lcService (h.setSfe f))))
    ∧ (due → plain ∨ (sw = .armHome ∧ (s.rrc.hold = false ∨ s.aha.holds .loader = false)) → on = false →
      inSet s.sfe.g0.sel sw = false → inSet s.sfe.g1.sel sw = true → inSet s.sfe.g2.sel sw = false →
      inSet s.sfe.g3.sel sw = false →
      let m := mism s.sfe.g1
      let t := loaderOff (h.setSfe { f with g1 := taken s.sfe.g1 })
      (s.sfe.g1.mism ≠ 0 ∨ m = 0 ∨ h.aha.holder = none ∨ (∀ dir, s.aha.valve ≠ some (.index, dir)) →
        c = .next (lcService t))
      ∧ ∀ r dir, s.sfe.g1.mism = 0 → m ≠ 0 → h.aha.holder = some r → s.aha.valve = some (.index, dir) →
        c = .next (finish (settle (endHolder (.failed r .guard m) t)))
        ∧ ∀ o, r.fn = .index → r.client = .handling → s.aha.stack = [] → s.aha.waiting = [] →
          s.hs.op = some o → s.hs.seq = .running →
          c = .next (lcService ((((h.setSfe { f with g1 := ⟨0, 0, 0, true⟩ }).setAha
            ⟨none, [], [], none⟩).setHs
              { h.hs with
                seq := .held, cause := some (.held .carousel (some m)), stall := none }).raise
                  (.opHeld o.op o.stage .carousel (some m)))))
    ∧ (due → plain → inSet s.sfe.g0.sel sw = false → inSet s.sfe.g1.sel sw = false →
      inSet s.sfe.g2.sel sw = true → inSet s.sfe.g3.sel sw = false →
      (∀ r, h.aha.holder = some r → r.target ≠ .switch sw ∧ r.target ≠ .jog (some sw)) →
      let m := mism s.sfe.g2
      let t := h.setSfe { f with g2 := taken s.sfe.g2 }
      (s.sfe.g2.mism ≠ 0 ∨ m = 0 → c = .next (lcService t))
      ∧ (s.sfe.g2.mism = 0 → m ≠ 0 →
        (s.cm.mon ≠ .watchEntry → s.cm.mon ≠ .holeWatch → c = .next (lcService t))
        ∧ (s.cm.mon = .holeWatch → c = .next (lcService (t.raise (.driftSwitch m))))
        ∧ (s.cm.mon = .watchEntry → c = .next (finish (hsMonitor
          (((h.setSfe { f with g2 := ⟨0, 0, 0, true⟩ }).setCm
            { h.cm with
              mon := .idle, span := [], secPulses := 0, capTimer := none, capSum := 0, capCount := 0
              entryVol := 0 }).raise (.entryAborted .switch)))))))
    ∧ ∀ o, due → plain → on = false → inSet s.sfe.g0.sel sw = true → inSet s.sfe.g1.sel sw = false →
      inSet s.sfe.g2.sel sw = false → inSet s.sfe.g3.sel sw = false → s.sfe.g0.mism = 0 →
      mism s.sfe.g0 ≠ 0 → s.hs.op = some o → s.hs.seq = .running ∨ s.hs.seq = .waiting →
      c = .next (finish (settle ((withdraw .handling ((h.setSfe { f with g0 := taken s.sfe.g0 }).setHs
        { h.hs with
          seq := .held, cause := some (.held .guard (some (mism s.sfe.g0))), stall := none })).raise
            (.opHeld o.op o.stage .guard (some (mism s.sfe.g0))))))
    ∧ (due → plain → on = false → inSet s.sfe.g0.sel sw = true → inSet s.sfe.g1.sel sw = true →
      inSet s.sfe.g2.sel sw = false → inSet s.sfe.g3.sel sw = false →
      let m0 := mism s.sfe.g0
      let m := mism s.sfe.g1
      let held0 := s.sfe.g0.mism = 0 ∧ m0 ≠ 0
      let fails := s.sfe.g1.mism = 0 ∧ m ≠ 0
      let t := h.setSfe { f with g0 := taken s.sfe.g0, g1 := taken s.sfe.g1 }
      (¬held0 ∨ s.hs.op = none ∨ (s.hs.seq ≠ .running ∧ s.hs.seq ≠ .waiting) →
        (¬fails ∨ h.aha.holder = none ∨ (∀ dir, s.aha.valve ≠ some (.index, dir)) →
          c = .next (lcService t))
        ∧ ∀ r dir, fails → h.aha.holder = some r → s.aha.valve = some (.index, dir) →
          c = .next (finish (settle (endHolder (.failed r .guard m) t))))
      ∧ ∀ o, held0 → s.hs.op = some o → s.hs.seq = .running ∨ s.hs.seq = .waiting →
        let u := settle ((withdraw .handling (t.setHs
          { h.hs with
            seq := .held, cause := some (.held .guard (some m0)), stall := none })).raise
              (.opHeld o.op o.stage .guard (some m0)))
        (¬fails → c = .next (finish u))
        ∧ (fails → u.aha.holder = none ∨ (∀ dir, u.aha.valve ≠ some (.index, dir)) →
          c = .next (finish (settle u)))
        ∧ (∀ r dir, fails → u.aha.holder = some r → u.aha.valve = some (.index, dir) →
          c = .next (finish (settle (endHolder (.failed r .guard m) u))))
        ∧ ∀ r, h.aha.holder = some r → r.fn = .index → r.client = .handling → s.aha.stack = [] →
          s.aha.waiting = [] →
          c = .next (lcService ((((h.setSfe
            { f with g0 := taken s.sfe.g0, g1 := ⟨0, 0, 0, (taken s.sfe.g1).flag⟩ }).setAha
              ⟨none, [], [], none⟩).setHs
                { h.hs with
                  seq := .held, cause := some (.held .guard (some m0)), stall := none }).raise
                    (.opHeld o.op o.stage .guard (some m0)))))

/-- At the end of acquisition, with the groups as a start leaves them, the millisecond count and the
pulse counts are 0, the sample timer starts, and the report goes to the supervisor, which ends start-up
if the store has reported; where the store has not, start-up goes on (R2, R4, R9, R53, R195); INDEX
LOCKED counts as it then stands (log 33), and a step that it counts is delivered to the arbiter: a
motion to the slot reached completes (R53, R67). Before every switch is acquired, and after the end, the
event does nothing, which is the model's (log 9). The end of a cold start-up sets the validity mark
(R194). The end of a warm one clears the recovery-pending mark, adds the gap to one category by the job
state and to the open seconds, drops the loss category and marks the open interval POWER GAP (R196); the
RECOVERY record is handed over, or held while the queue has no place, or merged into one still held
(R197; log 18), and POWER RECOVERED tells it; the loader tests (R58), and a FINAL ticket that waits is
built (R171). -/
def Obligations.AcquisitionEndStartsTheInputs : Prop :=
  (∀ (dt : Nat) (s : State), s.awake →
     let h := s.elapse dt
     let c := exec (.acquisitionEnd dt) s
     (s.sfe.acquisitionEnded = true ∨ h.sfe.acquired ≠ BitVec.allOnes 16 → c = .next (lcService h))
     ∧ (s.sfe.acquisitionEnded = false → h.sfe.acquired = BitVec.allOnes 16 →
       s.sfe.g0 = .reset → s.sfe.g1 = .reset → s.sfe.g2 = .reset → s.sfe.g3 = .reset →
       let counted := h.on .indexLocked = true ∧ s.rrc.stepMark = true
       let met := fun q : Req =>
         if counted ∧ q.client = .manual ∧ q.ownStep = true then { q with moved := true } else q
       let t := (((h.setSfe
         { h.sfe with
           acquisitionEnded := true, ms := 0, stroke1 := 0, stroke2 := 0, retCount := 0, rotCount := 0
           rotTimer := none, sampleTimer := some 100 }).setRrc
         (if h.on .indexLocked then
           (if s.rrc.stepMark then
             { s.rrc with index := stepFrom s.rrc.stepDir s.rrc.index, stepMark := false } else s.rrc)
           else { s.rrc with stepMark := true })).setTps { s.tps with inputsReported := true }).setAha
             { h.aha with
               holder := h.aha.holder.map met, stack := h.aha.stack.map met
               waiting := h.aha.waiting.map met }
       (¬counted ∨ (∀ q ∈ h.aha.standing, q.fn ≠ .index) → s.tps.phase = .startUp →
         (s.tps.storeReported = false → c = .next (lcService t))
         ∧ (s.tps.storeReported = true → c = .next (finish (tryEndStartUp t))))
       ∧ ∀ q n, counted → (q.client = .manual → q.ownStep = false) → h.aha.holder = some q →
         q.fn = .index → q.target = .slot n →
         (n = t.rrc.index →
           let u := settle (endHolder (.complete q .target) (t.setTps s.tps))
           c = .next (finish (tryEndStartUp (u.setTps { u.tps with inputsReported := true }))))
         ∧ (n ≠ t.rrc.index → q.lockWait = none → s.tps.phase = .startUp →
           s.tps.storeReported = false → c = .next (lcService t))))
  ∧ ∀ u : State,
      let top := 4294967295
      let clock := u.tps.clock
      let over_ := u.tps.phase = .startUp ∧ u.tps.inputsReported = true ∧ u.tps.storeReported = true
      let ended := fun v : State => tryEndStartUp u = testFinal (settle (loaderTest v))
      let running := { u.tps with phase := .running, startEnd := some clock }
      (¬over_ → tryEndStartUp u = u)
      ∧ (over_ → u.tps.startKind = .cold →
        ended ((u.setTps { running with valid := true }).raise .poweredCold))
      ∧ (over_ → u.tps.startKind = .warm →
        let gap := match u.tps.lossSec with | some l => clock - l | none => 0
        let cat : Option Category :=
          if u.bu.jobSt = .opened then (if u.bu.breakdown = none then some .standby else some .breakdown)
          else if u.bu.jobSt = .suspended then some .held else none
        let add := fun (c : Category) (a : Accum) =>
          { a with time := a.time.modify (c.code - 1) (fun n => min (n + gap) top) }
        let e : State := match cat with
          | none => (u.setTps { running with recoveryPending := false }).setBu
              { u.bu with lossCat := none }
          | some c => ((u.setTps { running with recoveryPending := false }).setBu
              { u.bu with
                lossCat := none, totals := add c u.bu.totals, since := add c u.bu.since
                openSecs := min (u.bu.openSecs + gap) top }).setDib
                  { u.dib with openIv := u.dib.openIv.map (fun v => { v with powerGap := true }) }
        let rec_ : Recovery :=
          { job := if u.bu.jobSt = .noJob then 0 else (u.bu.job.map JobRec.number).getD 0
            lossSec := u.tps.lossSec, startEnd := clock, gap := gap, gapCat := cat
            lossCat := u.bu.lossCat, jobSt := u.bu.jobSt, seq := u.hs.seq
            op := u.hs.op.map (fun o => (o.op, o.stage)), count := 1 }
        let told := fun (v : State) (n : Option Nat) =>
          ended (v.raise (.poweredWarm gap cat u.hs.seq rec_.op n))
        (∀ x, u.tps.heldRecovery = some x → told (e.setTps
          { e.tps with
            heldRecovery := some
              { rec_ with
                job := x.job, lossSec := x.lossSec, gap := min (x.gap + gap) top
                count := min (x.count + 1) 255 } }) none)
        ∧ (u.tps.heldRecovery = none →
          (u.rws.hasPlace = true → told (e.setRws (writerTest
            { u.rws with
              nextSeq := u.rws.nextSeq + 1
              queue := u.rws.queue ++ [⟨.recovery, u.rws.nextSeq, rec_.job, blocksFor rec_.body.length,
                clock, rec_.body, false, none⟩] })) (some u.rws.nextSeq))
          ∧ (u.rws.hasPlace = false → u.rws.nextSeq ≤ top ∨ u.rws.exhausted = true →
            told (e.setTps { e.tps with heldRecovery := some rec_ }) none)))

/-- A stroke is counted, stamps its pump's record, and goes into the window in progress, whose count of
it stops at 60 with the overflow mark set beyond (R21). A STOPPED pump becomes STARTING with its gap
timer at 20 s, and takes an IDLE monitor to SETTLING; a STARTING one becomes RUNNING; the gap timer
restarts at three intervals, held between 2 s and 20 s. A gap timer that runs out makes the pump
STOPPED, with no interval and no remainder; with both STOPPED, SETTLING and WATCHING give way to FLOW
CHECK (R4, R18, R19, R29, R31). A STOPPED pump's stroke in WATCH ENTRY aborts the entry with STROKE, in
FLOW CHECK ends the check NOT COMPLETED, and in HOLE WATCH disarms group 2 and drops the reference, and
from each the monitor goes on to SETTLING (R32, R37, R40). A pump that leaves STOPPED holds an operation
that is past QUIET and has not begun UNCLAMP, with PUMP (R91, R94), and every change of the monitor's
tests QUIET (R81). That a stroke before the end of acquisition does nothing is the model's choice (log
11). -/
def Obligations.StrokesRunThePumps : Prop :=
  (∀ (dt : Nat) (p : Pump) (s : State), s.awake →
     let h := s.elapse dt
     let c := exec (.strokePulse dt p) s
     let b := h.cm.pump p
     let f := match p with
       | .one => { h.sfe with stroke1 := (s.sfe.stroke1 + 1) % 2 ^ 32 }
       | .two => { h.sfe with stroke2 := (s.sfe.stroke2 + 1) % 2 ^ 32 }
     let counts := fun w : Window => match p with
       | .one => if w.strokes1 < 60 then { w with strokes1 := w.strokes1 + 1 } else { w with over1 := true }
       | .two => if w.strokes2 < 60 then { w with strokes2 := w.strokes2 + 1 } else { w with over2 := true }
     let with_ := fun r : PumpRec => (h.setSfe f).setCm
       { h.cm.setPump p r with win := s.cm.win.map counts }
     (s.sfe.acquisitionEnded = false → c = .next (lcService h))
     ∧ (∀ last, s.sfe.acquisitionEnded = true → s.cm.mon ≠ .watchEntry → b.st ≠ .stopped →
       b.last = some last →
       let i := max 1 ((h.sfe.ms + (2 ^ 32 - last)) % 2 ^ 32)
       let r : PumpRec :=
         { b with
           st := .running, last := some h.sfe.ms, interval := some i
           gap := some (max 2000 (min 20000 (3 * i))) }
       (b.st = .running → c = .next (lcService (with_ r)))
       ∧ (b.st = .starting →
         c = .next (finish (hsMonitor ((with_ r).raise (.pumpChange p .running (60000 / i)))))))
     ∧ (s.sfe.acquisitionEnded = true → b.st = .stopped → b.interval = none →
       let t := (with_ { b with st := .starting, last := some h.sfe.ms, gap := some 20000 }).raise
         (.pumpChange p .starting 0)
       (s.cm.mon = .idle → c = .next (finish (hsPump (hsMonitor (hsMonitor (t.setCm
         { t.cm with
           mon := .settling, settle := min 14 (2 + s.dib.depth / 1000 / 50), span := []
           secPulses := 0 }))))))
       ∧ (s.cm.mon = .settling ∨ s.cm.mon = .watching →
         c = .next (finish (hsPump (hsMonitor t))))
       ∧ (let settles := fun m : Cm =>
           { m with
             mon := .settling, settle := min 14 (2 + s.dib.depth / 1000 / 50), span := []
             secPulses := 0 }
         let g2 := fun u : State => u.setSfe { u.sfe with g2 := ⟨0, 0, 0, s.sfe.g2.flag⟩ }
         (s.cm.mon = .watchEntry → c = .next (finish (hsPump (((g2 t).setCm
           (settles { t.cm with capTimer := none, capSum := 0, capCount := 0, entryVol := 0 })).raise
             (.entryAborted .stroke)))))
         ∧ (s.cm.mon = .flowCheck → c = .next (finish (hsPump ((t.setCm
           (settles
             { t.cm with
               fcResult := .notCompleted, fcSecond := some s.tps.clock, fcVolume := some s.cm.fcVol
               fcTimer := none })).raise (.flowCheck .notCompleted s.tps.clock s.cm.fcVol)))))
         ∧ (s.cm.mon = .holeWatch → c = .next (finish (hsPump ((g2 t).setCm
           (settles { t.cm with ref := none, hiStep := 0, loStep := 0 })))))))
     ∧ (∀ k, b.gap = some k → 0 < k → exec (.pumpGapTimerExpiry dt p) s = .next (lcService h))
     ∧ (b.gap = some 0 →
       let t := (h.setCm (h.cm.setPump p
         { b with st := .stopped, interval := none, gap := none, remainder := 0 })).raise
           (.pumpChange p .stopped 0)
       let quiet := t.cm.pump1.st = .stopped ∧ t.cm.pump2.st = .stopped
       let checked := s.cm.mon = .settling ∨ s.cm.mon = .watching
       (quiet → checked → exec (.pumpGapTimerExpiry dt p) s = .next (finish (hsMonitor (t.setCm
         { t.cm with
           mon := .flowCheck, cond := .normal, fcTimer := some (s.pFlowPeriod * 1000), fcVol := 0 }))))
       ∧ (¬(quiet ∧ checked) → exec (.pumpGapTimerExpiry dt p) s = .next (finish (hsMonitor t)))))
  ∧ ∀ u : State,
      (u.hs.op = none → hsPump u = u ∧ hsMonitor u = u)
      ∧ ∀ o, u.hs.op = some o →
        let acts := u.hs.seq = .running ∨ u.hs.seq = .waiting
        let past := o.stage ≠ .quiet ∧ ¬(o.stage = .unclamp ∧ o.begun = true)
        (¬(acts ∧ past) → hsPump u = u)
        ∧ (acts → past → hsPump u = (withdraw .handling (u.setHs
          { u.hs with seq := .held, cause := some (.held .pump none), stall := none })).raise
            (.opHeld o.op o.stage .pump none))
        ∧ (o.stage ≠ .quiet ∨ u.hs.seq ≠ .waiting ∨ o.begun = false ∨ quietMet u = false →
          hsMonitor u = u)
        ∧ (o.stage = .quiet → u.hs.seq = .waiting → o.begun = true → quietMet u = true →
          hsMonitor u = u.report (.stageMet .quiet))

/-- Once acquisition has ended, a rotation pulse is counted, sets the rotating indication for 2 s and is
tested by the SPIN stage; the indication is cleared when its time has run out. A return pulse is counted
and joins the window in progress, and by the monitor's state the flow check, which FAILS above the
allowance with the GAIN latch set, the hole-watch entry, which aborts above it, or the second's idle
flow (R4, R5, R21, R31 to R33, R36, R37). That a pulse before the end of acquisition does nothing is the
model's choice (log 11), that before the first window the factor is the parameter as stored its reading
(log 12), and that a second's idle flow counts from the entry to IDLE its choice (log 39). -/
def Obligations.PulsesAreCounted : Prop :=
  ∀ (dt : Nat) (s : State), s.awake →
    let h := s.elapse dt
    (s.sfe.acquisitionEnded = false →
      exec (.rotationPulse dt) s = .next (lcService h) ∧ exec (.returnMeterPulse dt) s = .next (lcService h))
    ∧ (s.sfe.acquisitionEnded = true →
      exec (.rotationPulse dt) s = .next (finish (hsRotation (h.setSfe
        { h.sfe with rotCount := (s.sfe.rotCount + 1) % 2 ^ 32, rotTimer := some 2000 }))))
    ∧ (∀ k, h.sfe.rotTimer = some k → exec (.rotatingIndicationExpiry dt) s =
      .next (lcService (if k = 0 then h.setSfe { h.sfe with rotTimer := none } else h)))
    ∧ (s.sfe.acquisitionEnded = true →
      let t := (h.setSfe { h.sfe with retCount := (s.sfe.retCount + 1) % 2 ^ 32 }).setCm
        { h.cm with win := s.cm.win.map (fun w => { w with returns := w.returns + 1 }) }
      let c := exec (.returnMeterPulse dt) s
      let k := h.inForce.k
      (s.cm.mon = .settling ∨ s.cm.mon = .watching → c = .next (lcService t))
      ∧ (s.cm.mon = .idle ∨ s.cm.mon = .holeWatch →
        c = .next (lcService (t.setCm { t.cm with secPulses := s.cm.secPulses + 1 })))
      ∧ (s.cm.mon = .flowCheck →
        let u := t.setCm { t.cm with fcVol := s.cm.fcVol + k }
        (s.cm.fcVol + k ≤ s.pFlowAllowance → c = .next (lcService u))
        ∧ (s.pFlowAllowance < s.cm.fcVol + k → c = .next (finish (hsMonitor (setLatch .gain .flowCheck
          (s.cm.fcVol + k : Nat) ((u.setCm
            { u.cm with
              mon := .idle, span := [], secPulses := 0, fcResult := .failed
              fcSecond := some s.tps.clock, fcVolume := some (s.cm.fcVol + k), fcTimer := none }).raise
                (.flowCheck .failed s.tps.clock (s.cm.fcVol + k))))))))
      ∧ (s.cm.mon = .watchEntry →
        let u := t.setCm { t.cm with entryVol := s.cm.entryVol + k }
        (s.cm.entryVol + k ≤ s.pFlowAllowance → c = .next (lcService u))
        ∧ (s.pFlowAllowance < s.cm.entryVol + k → c = .next (finish (hsMonitor
          (((u.setSfe { u.sfe with g2 := ⟨0, 0, 0, s.sfe.g2.flag⟩ }).setCm
            { u.cm with
              mon := .idle, span := [], secPulses := 0, capTimer := none, capSum := 0, capCount := 0
              entryVol := 0 }).raise (.entryAborted .returnFlow)))))))

/-- The head encoder: in GOOD a legal step moves the head height by 1 mm and delivers it to the builder
and to LIFT; a step out of the range 0 to 7,500, or of both channels, takes the encoder to FAULT with
its cause and leaves the height, and the builder marks it, decides the depth state afresh (O45) and
raises DEPTH FAULT with the cause, the depth and the state; in FAULT nothing is applied (R6, R7, R107).
While the depth is LIVE a delivered height gives the bit depth anew, floored at 0, and in HELD and FAULT
it moves nothing (R105). With a job OPEN or SUSPENDED a depth above the high-water mark becomes the mark
(R109): its rise is split at the bands' bounds into the footage of both sets (R150), every rod of the
string gains it as drilled distance and is worn at the limit (R49), and at the open interval's boundary
the interval closes at the last boundary passed and the next opens there, flagged SPAN past more than
one, the head forced out where that makes room, or it goes on MERGED where there is no room (R114,
R115). That an interval which merges keeps the SPAN of its boundary is the model's reading (log 17), and
so are that a head forced out in vain stays out (log 27) and that the queue counts as full with the
numbers exhausted (log 46). -/
def Obligations.EncoderStepsMoveTheHead : Prop :=
  (∀ (dt : Nat) (d : EncoderStep) (s : State), s.awake →
     let h := s.elapse dt
     let c := exec (.headEncoderStep dt d) s
     (s.sfe.enc ≠ .good → c = .next (lcService h))
     ∧ ∀ x, s.sfe.enc = .good → s.sfe.head = some x →
       let fault := fun why =>
         let v := decideDepth ((h.setSfe { h.sfe with enc := .fault why }).setDib
           { s.dib with encFaulted := true })
         c = .next (finish (v.raise (.depthFault (some why) v.dib.depth v.dib.dstate)))
       let moved := fun y => c = .next (finish (hsHead (recompute ((h.setSfe
         { h.sfe with head := some y }).setDib { s.dib with headLast := some y }))))
       (d = .both → fault .quadrature)
       ∧ (d = .up → 7500 ≤ x → fault .range)
       ∧ (d = .down → x = 0 → fault .range)
       ∧ (d = .up → x < 7500 → moved (x + 1))
       ∧ (d = .down → 0 < x → moved (x - 1)))
  ∧ (∀ u : State,
      (u.dib.dstate ≠ .live → recompute u = u)
      ∧ (u.dib.dstate = .live → recompute u = testHwm (u.setDib
        { u.dib with
          depth := ((u.dib.lenLast : Int) - (u.dib.headLast.getD 0 : Nat) - u.dib.offset).toNat }))
      ∧ (u.bu.jobSt = .noJob ∨ u.bu.jobSt = .closing ∨ u.dib.depth ≤ u.dib.hwm → testHwm u = u)
      ∧ ∀ t, u.bu.jobSt = .opened ∨ u.bu.jobSt = .suspended → u.dib.hwm < u.dib.depth →
        u.bu.jobTariff = some t →
        let h0 := u.dib.hwm
        let h1 := u.dib.depth
        let x := h1 - h0
        let part := fun i : Nat => match t.bands[i]?, t.bands[i + 1]? with
          | some a, some b => min h1 b.1 - max h0 a.1
          | some a, none => h1 - max h0 a.1
          | none, _ => 0
        let more := fun a : Accum =>
          { a with
            footage := (a.footage.take t.bands.length).mapIdx
              (fun i n => min (n + part i) 4294967295) }
        let footed := (u.setDib { u.dib with hwm := h1 }).setBu
          { u.bu with totals := more u.bu.totals, since := more u.bu.since }
        testHwm u = testBoundary (drilledDistance x footed))
  ∧ (∀ (u : State) (x : Nat), (u.rrc.string.map Prod.fst).Nodup →
      let t := drilledDistance x u
      let rods := u.rrc.string.map Prod.fst
      (∀ i, i ∉ rods → t.rrc.rod i = u.rrc.rod i)
      ∧ (∀ i rod, i ∈ rods → u.rrc.rod i = some rod →
        let far := min (rod.dist + x) 4294967295
        t.rrc.rod i = some
          { rod with dist := far, worn := rod.worn || decide (u.pDistLimitM * 1000 ≤ far) })
      ∧ t.rrc = { u.rrc with registry := t.rrc.registry } ∧ t.dib = u.dib ∧ t.bu = u.bu
      ∧ t.sfe = u.sfe ∧ t.cm = u.cm ∧ t.aha = u.aha ∧ t.hs = u.hs ∧ t.rws = u.rws ∧ t.tps = u.tps
      ∧ ((∀ i rod, i ∈ rods → u.rrc.rod i = some rod →
          rod.worn = true ∨ rod.dist + x < u.pDistLimitM * 1000) → t.lc = u.lc)
      ∧ ∀ i torque rest rod, u.rrc.string = (i, torque) :: rest → u.rrc.rod i = some rod →
        rod.worn = false → u.pDistLimitM * 1000 ≤ min (rod.dist + x) 4294967295 →
        (∀ j b, j ∈ rest.map Prod.fst → u.rrc.rod j = some b →
          b.worn = true ∨ b.dist + x < u.pDistLimitM * 1000) →
        t.lc = (u.raise (.rodWorn rod.serial .distance rod.conns (min (rod.dist + x) 4294967295))).lc)
  ∧ ∀ u : State,
      (u.dib.openIv = none → testBoundary u = u)
      ∧ ∀ iv, u.dib.openIv = some iv →
        let bottom := iv.top + (u.dib.hwm - iv.top) / iv.length * iv.length
        let spanned := { iv with span := iv.span || decide (iv.boundary < bottom) }
        let v := u.setDib { u.dib with openIv := some spanned }
        (u.dib.hwm < iv.boundary → testBoundary u = u)
        ∧ (iv.boundary ≤ u.dib.hwm →
          (u.dib.queue.length < 16 → (∀ e ∈ u.dib.queue, e.flush = false) →
            let e := closedEntry spanned bottom v
            testBoundary u = openInterval bottom ((u.setDib
              { u.dib with queue := u.dib.queue ++ [e], openIv := none }).raise
                (.intervalClosed iv.job iv.number iv.top bottom e.rop iv.meanPressure
                  (BitVec.ofNat 8 (spanned.flagByte false)))))
          ∧ (16 ≤ u.dib.queue.length → u.rws.hasPlace = false →
            testBoundary u = u.setDib
              { u.dib with
                openIv := some { spanned with merged := true, boundary := bottom + iv.length } })
          ∧ (∀ w, makeRoom v = (w, true) →
            let e := closedEntry spanned bottom w
            testBoundary u = openInterval bottom ((w.setDib
              { w.dib with queue := w.dib.queue ++ [e], openIv := none }).raise
                (.intervalClosed iv.job iv.number iv.top bottom e.rop iv.meanPressure
                  (BitVec.ofNat 8 (spanned.flagByte false)))))
          ∧ ∀ w, makeRoom v = (w, false) →
            testBoundary u = w.setDib
              { w.dib with
                openIv := some { spanned with merged := true, boundary := bottom + iv.length } })

/-- A sample is taken when its 100 ms have run out: a reading of 200 to 10,200 is good and gives
floor((p - 200) x span / 10,000); each input moves by the table of R10, SENSOR FAULT is raised where an
input enters FAULTED or leaves it, and the inputs are delivered to their readers (R9, R10, R11). A pit
level that is good joins the second's mean, and in WATCH ENTRY the capture (R36, R38); one that is
faulted spoils the second's mean, and aborts an entry with PIT FAULT, a GOOD pit's bad sample raising
SENSOR FAULT before it in the same step (R35, R37). A good pressure joins the open interval's sum and
count while the category is DRILLING (R112); that the count stops at its top is the model's choice (log
37). -/
def Obligations.SamplesMoveTheInputs : Prop :=
  (∀ span p : Nat,
    ((200 ≤ p ∧ p ≤ 10200) → goodValue span p = some ((p - 200) * span / 10000))
    ∧ (¬(200 ≤ p ∧ p ≤ 10200) → goodValue span p = none))
  ∧ (∀ (a : Analogue) (x : Nat),
    (a.st = .acquiring → a.sample (some x) = (⟨.good, some x, 0⟩, none)
      ∧ a.sample none = (⟨.faulted, none, 0⟩, some true))
    ∧ (a.st = .good → a.sample (some x) = (⟨.good, some x, 0⟩, none)
      ∧ a.sample none = (⟨.faulted, a.value, 0⟩, some true))
    ∧ (a.st = .faulted → a.sample none = (⟨.faulted, a.value, 0⟩, none)
      ∧ (a.goods < 2 → a.sample (some x) = (⟨.faulted, a.value, a.goods + 1⟩, none))
      ∧ (2 ≤ a.goods → a.sample (some x) = (⟨.good, some x, 0⟩, some false))))
  ∧ ∀ (dt p q r : Nat) (s : State), s.awake →
    let h := s.elapse dt
    let c := exec (.analogueSample dt p q r) s
    let x := s.sfe.pit.sample (goodValue 4000 p)
    let y := s.sfe.press.sample (goodValue 25000 q)
    let z := s.sfe.torque.sample (goodValue 30000 r)
    let t := h.setSfe
      { h.sfe with pit := x.1, press := y.1, torque := z.1, sampleTimer := some 100 }
    let aborted := fun u : State => hsMonitor
      (((u.setSfe { u.sfe with g2 := ⟨0, 0, 0, s.sfe.g2.flag⟩ }).setCm
        { u.cm with
          pitBad := true, mon := .idle, span := [], secPulses := 0, capTimer := none, capSum := 0
          capCount := 0, entryVol := 0 }).raise (.entryAborted .pitFault))
    (h.sfe.sampleTimer ≠ some 0 → c = .next (lcService h))
    ∧ (h.sfe.sampleTimer = some 0 →
      let noted := fun (i : AInput) (y : Analogue × Option Bool) (u : State) => match y.2 with
        | none => u
        | some b => u.raise (.sensorFault i b y.1.value)
      c = .next (finish (hsTorque (deliverPressure (cmPit
        (noted .headTorque z (noted .pumpPressure y (noted .pitLevel x t))))))))
    ∧ (∀ v, h.sfe.sampleTimer = some 0 → x.2 = none → y.2 = none → z.2 = none →
      x.1 = ⟨.good, some v, 0⟩ → s.cm.mon ≠ .watchEntry →
      c = .next (finish (hsTorque (deliverPressure (t.setCm
        { h.cm with pitSum := s.cm.pitSum + v, pitCount := s.cm.pitCount + 1 })))))
    ∧ (∀ v, h.sfe.sampleTimer = some 0 → x.2 = none → y.2 = none → z.2 = none →
      x.1 = ⟨.good, some v, 0⟩ → s.cm.mon = .watchEntry →
      c = .next (finish (hsTorque (deliverPressure (t.setCm
        { h.cm with
          pitSum := s.cm.pitSum + v, pitCount := s.cm.pitCount + 1
          capSum := s.cm.capSum + v, capCount := s.cm.capCount + 1 })))))
    ∧ (h.sfe.sampleTimer = some 0 → x.2 = none → y.2 = none → z.2 = none → x.1.st = .faulted →
      (s.cm.mon ≠ .watchEntry → c = .next (finish (hsTorque (deliverPressure (t.setCm
        { h.cm with pitBad := true })))))
      ∧ (s.cm.mon = .watchEntry → c = .next (finish (hsTorque (deliverPressure (aborted t))))))
    ∧ (∀ v, h.sfe.sampleTimer = some 0 → s.sfe.pit.st = .good → s.sfe.pit.value = v →
      goodValue 4000 p = none → y.2 = none → z.2 = none →
      let u := t.raise (.sensorFault .pitLevel true v)
      (s.cm.mon ≠ .watchEntry → c = .next (finish (hsTorque (deliverPressure (u.setCm
        { u.cm with pitBad := true })))))
      ∧ (s.cm.mon = .watchEntry → c = .next (finish (hsTorque (deliverPressure (aborted u))))))
    ∧ ∀ u : State,
      (u.sfe.press.st ≠ .good ∨ u.bu.category ≠ .drilling → deliverPressure u = u)
      ∧ ∀ v, u.sfe.press.st = .good → u.sfe.press.value = some v → u.bu.category = .drilling →
        deliverPressure u = u.setDib
          { u.dib with
            openIv := u.dib.openIv.map (fun iv => { iv with
              pSum := iv.pSum + v, pCount := min (iv.pCount + 1) 4294967295 }) }

/-! ## Seconds, windows and timers -/

/-- A second tick advances the clock. Held in reset it does nothing more, and before start-up has ended
no tick is delivered. Delivered, the category in force is the first of R145's ten whose condition holds,
and in OPEN and SUSPENDED, and only there, the second is added to it in both sets and to the open
seconds. In the monitor states that watch no idle flow the rest is the drilling second, the grace
expiries that have come, the samples counted afresh, and the window, which opens at the first tick and
loses a second at every other (R21, R112, R119, R145, R148, R191). In IDLE and in HOLE WATCH the
second's return volume joins the span, and a span above the allowance sets the GAIN latch with IDLE FLOW
(R33); in HOLE WATCH the mean pit level, where every sample of the second was good, gives a drift step
from the reference, and a step beyond the highest or the lowest so far becomes it, raises DRIFT and sets
the GAIN or the LOSS latch with DRIFT (R38, R39); a latch that is set stays as it is (R25). That pulses
counted before a tick that is not delivered are dropped is the model's reading (log 24), and so are the
drilling seconds held at their top (log 37), an expiry that its tick only marks (log 26) and whose
second does not wrap (log 38), the GAIN raised first with no divert status (log 28), the idle flow of a
second counted from the state's entry (log 39), idle flow tested before drift (log 8), and K as stored
before the first window (log 12). -/
def Obligations.SecondTicksClassifyAndAccrue : Prop :=
  ∀ (dt : Nat) (s : State),
    let h := s.elapse dt
    let c := exec (.secondTick dt) s
    let clock := (s.tps.clock + 1) % 2 ^ 32
    let late := h.setTps { s.tps with clock := clock }
    let cat : Category :=
      if s.bu.jobSt = .suspended then .held
      else if s.bu.breakdown ≠ none then .breakdown
      else if s.cm.lossLatch ≠ none ∨ s.cm.gainLatch ≠ none then .remediation
      else if s.cm.mon = .watchEntry ∨ s.cm.mon = .holeWatch then .holeWatch
      else if ∃ t ∈ s.hs.trip, t.ended = none then .tripping
      else if ∃ o ∈ s.hs.op, o.trip = false then .connection
      else if h.sfe.rotTimer ≠ none ∧ s.dib.dstate ≠ .fault ∧ s.dib.hwm ≤ s.dib.depth + 100 then
        .drilling
      else if h.sfe.rotTimer ≠ none ∧ s.dib.dstate ≠ .fault then .reaming
      else if s.cm.pump1.st ≠ .stopped ∨ s.cm.pump2.st ≠ .stopped then .circulating
      else .standby
    let more := fun l : List Nat => l.modify (cat.code - 1) (fun x => min (x + 1) 4294967295)
    let live := s.bu.jobSt = .opened ∨ s.bu.jobSt = .suspended
    let b := if live then
        { s.bu with
          category := cat
          totals := { s.bu.totals with time := more s.bu.totals.time }
          since := { s.bu.since with time := more s.bu.since.time }
          openSecs := min (s.bu.openSecs + 1) 4294967295 }
      else { s.bu with category := cat }
    (s.tps.phase = .off → c = .next (s.setTps { s.tps with clock := clock }))
    ∧ (s.tps.phase = .startUp → s.reports = [] →
      c = .next (lcService (late.setCm { h.cm with secPulses := 0 })))
    ∧ (s.tps.phase = .running → s.reports = [] →
      ∃ t, c = .next t ∧ t.tps = { s.tps with clock := clock } ∧ t.bu.category = cat
        ∧ t.bu.totals.time = b.totals.time ∧ t.bu.since.time = b.since.time
        ∧ t.bu.openSecs = b.openSecs)
    ∧ (s.tps.phase = .running → s.reports = [] → s.cm.mon ≠ .idle → s.cm.mon ≠ .holeWatch →
      c = .next (lcService (((late.setBu b).setDib
        { s.dib with
          openIv := if cat = .drilling then
              s.dib.openIv.map (fun v => { v with drillSecs := min (v.drillSecs + 1) 4294967295 })
            else s.dib.openIv
          queue := s.dib.queue.map (fun e => match e.st with
            | .sampleDue _ g => if g ≤ clock ∧ e.graceOver = false then { e with graceDue := true } else e
            | .awaiting => e) }).setCm
        { h.cm with
          pitSum := 0, pitCount := 0, pitBad := false
          win := match s.cm.win with
            | none => some ⟨s.force, s.force.w, 0, false, 0, false, 0, 0⟩
            | some w => some { w with left := w.left - 1 } })))
    ∧ (∀ (u : State) (src : LatchSrc) (x : Int),
      (u.cm.gainLatch ≠ none → setLatch .gain src x u = u)
      ∧ (u.cm.gainLatch = none → setLatch .gain src x u = hsMonitor (autoDivert ((u.setCm
        { u.cm with gainLatch := some ⟨src, u.tps.clock, x⟩, gainClr := 0 }).raise
          (.gain src x none))))
      ∧ (u.cm.lossLatch ≠ none → setLatch .loss src x u = u)
      ∧ (u.cm.lossLatch = none → setLatch .loss src x u = hsMonitor ((u.setCm
        { u.cm with lossLatch := some ⟨src, u.tps.clock, x⟩, lossClr := 0 }).raise (.loss src x))))
    ∧ (s.tps.phase = .running → s.reports = [] → s.cm.mon = .idle ∨ s.cm.mon = .holeWatch →
      let span := (s.cm.secPulses * h.inForce.k :: s.cm.span).take s.pFlowPeriod
      let t := (((late.setBu b).setDib
        { s.dib with
          openIv := if cat = .drilling then
              s.dib.openIv.map (fun v => { v with drillSecs := min (v.drillSecs + 1) 4294967295 })
            else s.dib.openIv
          queue := s.dib.queue.map (fun e => match e.st with
            | .sampleDue _ g => if g ≤ clock ∧ e.graceOver = false then { e with graceDue := true } else e
            | .awaiting => e) })).setCm { h.cm with span := span, secPulses := 0 }
      let flow := if s.pFlowAllowance < span.sum then setLatch .gain .idleFlow span.sum t else t
      let goesOn := fun u : State => c = .next (finish (u.setCm
        { u.cm with
          pitSum := 0, pitCount := 0, pitBad := false
          win := match s.cm.win with
            | none => some ⟨s.force, s.force.w, 0, false, 0, false, 0, 0⟩
            | some w => some { w with left := w.left - 1 } }))
      (s.cm.mon = .idle ∨ s.cm.ref = none ∨ s.cm.pitCount = 0 ∨ s.cm.pitBad = true → goesOn flow)
      ∧ ∀ (ref k : Int), s.cm.mon = .holeWatch → s.cm.ref = some ref → s.cm.pitCount ≠ 0 →
        s.cm.pitBad = false → 0 < s.pDriftBand →
        let level := s.cm.pitSum / s.cm.pitCount
        let diff := (level : Int) - ref
        let band := s.pDriftBand
        (-band ≤ diff ∧ diff ≤ band ∧ k = 0)
          ∨ (band < diff ∧ k * band < diff ∧ diff ≤ (k + 1) * band)
          ∨ (diff < -band ∧ -k * band < -diff ∧ -diff ≤ (-k + 1) * band) →
        (s.cm.loStep ≤ k → k ≤ s.cm.hiStep → goesOn flow)
        ∧ (s.cm.hiStep < k → goesOn (setLatch .gain .drift level
          ((flow.setCm { flow.cm with hiStep := k }).raise (.driftStep true level ref k))))
        ∧ (k ≤ s.cm.hiStep → k < s.cm.loStep → goesOn (setLatch .loss .drift level
          ((flow.setCm { flow.cm with loStep := k }).raise (.driftStep false level ref k)))))

/-- A window closes at its last second, and not before. Its pump-ins carry their remainders, its delta
is held within 500,000 mL, its record is kept, the cumulative volume rises, the builder takes the loss
and gain amounts by the latches, and the next window opens with the values now in force; a ring length
that has changed empties the ring, with S and the counts of suspect, clear and disagreeing windows 0 and
the condition NORMAL (R24). SETTLING counts down, and enters WATCHING with the ring empty at 0; WATCHING
appends to the ring and sums it; and other states do nothing more (R21, R22, R24, R26, R30). At the
builder the open interval's loss and gain grow by the two amounts, held at their tops (R113); each entry
that awaits its returns and whose lag mark the cumulative volume has reached becomes SAMPLE DUE at this
second, with its grace expiry, and SAMPLE DUE is raised for each in queue order (R119); and the head is
tested (R122). That a pump which became STOPPED in the window keeps what its strokes leave over is the
model's choice (log 36), and so is a grace expiry past the clock's top (log 38). -/
def Obligations.WindowsCloseIntoTheBalance : Prop :=
  (∀ (dt : Nat) (s : State), s.awake →
     let h := s.elapse dt
     let c := exec (.windowClose dt) s
     (s.cm.win = none → c = .next (lcService h))
     ∧ ∀ w, s.cm.win = some w →
       let raw1 := w.strokes1 * w.force.disp1 * w.force.eff1 + s.cm.pump1.remainder
       let raw2 := w.strokes2 * w.force.disp2 * w.force.eff2 + s.cm.pump2.remainder
       let x : Int := w.returns * w.force.k - ((raw1 / 1000 + raw2 / 1000 : Nat) : Int)
       let d := max (-500000) (min 500000 x)
       let clamp : ClampMark :=
         if x < -500000 then .bottom else if 500000 < x then .top else .unclamped
       let pit := if s.sfe.pit.st = .good then s.sfe.pit.value.map (fun v => v * w.force.area / 10)
         else none
       let r : WinRec :=
         { strokes1 := w.strokes1, over1 := w.over1, strokes2 := w.strokes2, over2 := w.over2
           in1 := raw1 / 1000, in2 := raw2 / 1000, ret := w.returns * w.force.k, d := d, clamp := clamp
           declared := w.declared, pit := pit, mon := s.cm.mon }
       let cum := min 281474976710655 (s.cm.cum + (raw1 / 1000 + raw2 / 1000))
       let t := h.setCm
         { h.cm with
           pump1 := { h.cm.pump1 with remainder := raw1 % 1000 }
           pump2 := { h.cm.pump2 with remainder := raw2 % 1000 }
           cum := cum, lastWin := some r }
       let closes := fun u => c = .next (finish (nextWindow w.force.n (dibWindow cum
         (if u.cm.lossLatch ≠ none ∧ d < 0 then d.natAbs else 0)
         (if u.cm.gainLatch ≠ none ∧ 0 < d then d.natAbs else 0) u)))
       let appended :=
         let ring := s.cm.ring.drop (s.cm.ring.length + 1 - w.force.n) ++ [⟨d, clamp, pit, w.declared⟩]
         t.setCm { t.cm with ring := ring, sum := (ring.map RingEntry.d).sum }
       (w.left ≠ 0 → c = .next (lcService h))
       ∧ (w.left = 0 →
         (s.cm.mon ≠ .settling → s.cm.mon ≠ .watching → closes t)
         ∧ (s.cm.mon = .settling → 1 < s.cm.settle →
           closes (t.setCm { t.cm with settle := s.cm.settle - 1 }))
         ∧ (s.cm.mon = .settling → s.cm.settle ≤ 1 → closes (hsMonitor (t.setCm
           { t.cm with
             settle := 0, mon := .watching, ring := [], sum := 0, lossSus := 0, gainSus := 0
             lossClr := 0, gainClr := 0, disagree := 0, cond := .normal })))
         ∧ (s.cm.mon = .watching →
           closes (crossCheck w.force (testClearing w.force (testBalance w.force appended)))))
       ∧ (∀ u : State,
         let win : Option Window := some ⟨u.force, u.force.w, 0, false, 0, false, 0, 0⟩
         (u.force.n = w.force.n → nextWindow w.force.n u = u.setCm { u.cm with win := win })
         ∧ (u.force.n ≠ w.force.n → nextWindow w.force.n u = u.setCm
           { u.cm with
             win := win, ring := [], sum := 0, lossSus := 0, gainSus := 0, lossClr := 0, gainClr := 0
             disagree := 0, cond := .normal })))
  ∧ ∀ (cum loss gain : Nat) (u : State),
      let due := fun e : Entry => e.st = .awaiting ∧ e.lag ≤ cum
      let told := (u.dib.queue.filter (fun e => decide (due e))).foldl
        (fun v e => v.raise (.sampleDue e.iv.number e.bottom u.tps.clock)) u
      dibWindow cum loss gain u = testHead (told.setDib
        { u.dib with
          cumLast := cum
          openIv := u.dib.openIv.map (fun v => { v with
            loss := min (v.loss + loss) 4294967295, gain := min (v.gain + gain) 4294967295 })
          queue := u.dib.queue.map (fun e =>
            if due e then { e with st := .sampleDue u.tps.clock (u.tps.clock + u.pGrace) } else e) })

/-- The test of S after a window in WATCHING: at or below minus the loss threshold the loss suspect
count rises and the gain count is 0, at or above the gain threshold the other way round, and between
them both are 0; a count that reaches M sets its latch, if it is clear, with source BALANCE and S (R25,
R26). A latch that is set is tested against half its threshold, and M quiet windows in a row clear it
with AUTOMATIC (R27); what the GAIN latch's clearing begins in the sequencer O33 says. The pit check,
made with two entries or more whose pit volumes are all present, counts the windows in which the pit
change and the balance differ by more than the tolerance, and raises PIT DISAGREE where it brings the
count to M (R28). A GAIN latch that goes to set with AUTO DIVERT on makes the divert status REQUESTED
and requests the close; a close that stands already is taken for it, and an open is withdrawn for it;
with AUTO DIVERT off the status is NONE unless a divert of an earlier setting still stands. Its
completion makes the status CLOSED, and its failure FAILED, with GAIN raised again while the latch is
set (R41); the motion of a DIVERTER message tells its end in OP DONE (R74). That GAIN is raised first
with no divert status is the model's reading (log 28), and so is what a count that reaches a raised M
again does (log 35). -/
def Obligations.SuspectWindowsSetTheLatches : Prop :=
  (∀ (f : Force) (s : State), 0 < f.lossThr → 0 < f.gainThr → 0 < f.m →
     let n := min 10 (s.cm.lossSus + 1)
     let k := min 10 (s.cm.gainSus + 1)
     let lossy := s.setCm { s.cm with lossSus := n, gainSus := 0, cond := .lossSuspect }
     let gainy := s.setCm { s.cm with lossSus := 0, gainSus := k, cond := .gainSuspect }
     (-(f.lossThr : Int) < s.cm.sum → s.cm.sum < f.gainThr →
       testBalance f s = s.setCm { s.cm with lossSus := 0, gainSus := 0, cond := .normal })
     ∧ (s.cm.sum ≤ -(f.lossThr : Int) →
       (n < f.m ∨ s.cm.lossLatch ≠ none → testBalance f s = lossy)
       ∧ (f.m ≤ n → s.cm.lossLatch = none → testBalance f s = hsMonitor ((lossy.setCm
         { lossy.cm with lossLatch := some ⟨.balance, s.tps.clock, s.cm.sum⟩, lossClr := 0 }).raise
           (.loss .balance s.cm.sum))))
     ∧ ((f.gainThr : Int) ≤ s.cm.sum →
       (k < f.m ∨ s.cm.gainLatch ≠ none → testBalance f s = gainy)
       ∧ (f.m ≤ k → s.cm.gainLatch = none → testBalance f s = hsMonitor (autoDivert ((gainy.setCm
         { gainy.cm with gainLatch := some ⟨.balance, s.tps.clock, s.cm.sum⟩, gainClr := 0 }).raise
           (.gain .balance s.cm.sum none))))))
  ∧ (∀ (f : Force) (s : State),
      let quiet := fun thr n : Nat => if s.cm.sum.natAbs ≤ thr / 2 then min 10 (n + 1) else 0
      let loss := fun u : State =>
        if u.cm.lossLatch = none then u
        else if quiet f.lossThr s.cm.lossClr < f.m then
          u.setCm { u.cm with lossClr := quiet f.lossThr s.cm.lossClr }
        else hsMonitor ((u.setCm { u.cm with lossLatch := none, lossSus := 0, lossClr := 0 }).raise
          (.latchCleared .loss .automatic))
      let gain := fun u : State =>
        if u.cm.gainLatch = none then u
        else if quiet f.gainThr s.cm.gainClr < f.m then
          u.setCm { u.cm with gainClr := quiet f.gainThr s.cm.gainClr }
        else hsGainCleared ((u.setCm { u.cm with gainLatch := none, gainSus := 0, gainClr := 0 }).raise
          (.latchCleared .gain .automatic))
      testClearing f s = gain (loss s))
  ∧ ∀ (f : Force) (s : State),
      (s.cm.ring.length < 2 ∨ (∃ e ∈ s.cm.ring, e.pit = none) →
        crossCheck f s = s.setCm { s.cm with disagree := 0 })
      ∧ ∀ base rest new (a b : Nat), s.cm.ring = base :: rest ++ [new] →
        (∀ e ∈ rest, e.pit ≠ none) → base.pit = some a → new.pit = some b →
        let change := (b : Int) - a - ((rest.map RingEntry.declared).sum + new.declared)
        let balance := s.cm.sum - base.d
        let n := min 10 (s.cm.disagree + 1)
        ((change - balance).natAbs ≤ f.tol →
          crossCheck f s = s.setCm { s.cm with disagree := 0 })
        ∧ (f.tol < (change - balance).natAbs →
          let t := s.setCm { s.cm with disagree := n }
          (n = f.m → s.cm.disagree < n →
            crossCheck f s = t.raise (.pitDisagree change balance (change - balance)))
          ∧ (n ≠ f.m ∨ n ≤ s.cm.disagree → crossCheck f s = t))
  ∧ (∀ u : State,
      let status := fun (d : Divert) (v : State) => v.setCm { v.cm with divert := d }
      let close := { Req.new .wellControl .diverter .second (.switch .diverterClosed) with byDivert := true }
      let asked := fun q : Req => if q.client = .wellControl then { q with byDivert := true } else q
      ((∀ q ∈ u.aha.standing, q.client ≠ .wellControl) →
        (u.pAutoDivert = true → autoDivert u = requestMotion close (status .requested u))
        ∧ (u.pAutoDivert = false → autoDivert u = status .noDivert u))
      ∧ ∀ a q b, u.aha.standing = a ++ q :: b → q.client = .wellControl →
        (∀ x ∈ a, x.client ≠ .wellControl) →
        (u.pAutoDivert = true → q.dir = .second → autoDivert u = (status .requested u).setAha
          { u.aha with
            holder := u.aha.holder.map asked, stack := u.aha.stack.map asked
            waiting := u.aha.waiting.map asked })
        ∧ (u.pAutoDivert = true → q.dir = .first →
          let v := withdraw .wellControl (status .requested u)
          autoDivert u = requestMotion close
            (if q.byMessage then v.raise (.diverterDone .first .withdrawn) else v))
        ∧ (u.pAutoDivert = false → autoDivert u = if q.byDivert then u else status .noDivert u))
  ∧ ∀ (u : State) (q : Req), u.reports = [] → q.client = .wellControl →
      let status := fun (d : Divert) (v : State) => v.setCm { v.cm with divert := d }
      let told := fun res => if q.byMessage then u.raise (.diverterDone q.dir res) else u
      (∀ how, settle (u.report (.complete q how)) =
        if q.byDivert then status .closed (told .done) else told .done)
      ∧ ∀ cause m, settle (u.report (.failed q cause m)) =
        if q.byDivert then
          match u.cm.gainLatch with
          | none => status .failed (told .timeout)
          | some l => (status .failed (told .timeout)).raise (.gain l.src l.figure (some .failed))
        else told .timeout

/-- Each timer acts when it has run out and not before. A flow check PASSES into IDLE, FLOW CHECK is
raised and QUIET tests again (R32); a capture with samples gives the reference floor(sum / count) and
enters HOLE WATCH (R36); a jog ends JOG END, and any other motion, a jog that still waits for INDEX
LOCKED among them (log 13), fails with TIMEOUT (R69, R73), which takes the operation of a HANDLING
motion to FAULTED where nothing else stands (R93); a stage that stalls raises OP HELD with STALL, once
(R82); and an entry whose grace expiry has come is ready, and the queue's head is tested (R119, R122). A
head that is ready, being SAMPLE DUE and final or past its grace, or of an earlier job, is handed over
as an INTERVAL record where the writer queue takes it, leaves the queue, and the next head is tested;
one that is not ready or not taken stays (R122). That a row before its time does nothing is the model's
(log 2), and that a check that ends has passed is read from R32 (log 20). -/
def Obligations.TimersActWhenTheyRunOut : Prop :=
  (∀ (dt : Nat) (s : State), s.awake →
     let h := s.elapse dt
     (s.cm.mon ≠ .flowCheck ∨ h.cm.fcTimer ≠ some 0 →
       exec (.flowCheckTimerExpiry dt) s = .next (lcService h))
     ∧ (s.cm.mon = .flowCheck → h.cm.fcTimer = some 0 →
       exec (.flowCheckTimerExpiry dt) s = .next (finish (hsMonitor ((h.setCm
         { h.cm with
           fcResult := .passed, fcSecond := some s.tps.clock, fcVolume := some s.cm.fcVol
           fcTimer := none, mon := .idle, span := [], secPulses := 0 }).raise
             (.flowCheck .passed s.tps.clock s.cm.fcVol)))))
     ∧ (s.cm.mon ≠ .watchEntry ∨ h.cm.capTimer ≠ some 0 →
       exec (.captureTimerExpiry dt) s = .next (lcService h))
     ∧ (s.cm.mon = .watchEntry → h.cm.capTimer = some 0 → 0 < s.cm.capCount →
       exec (.captureTimerExpiry dt) s = .next (finish (hsMonitor (h.setCm
         { h.cm with
           mon := .holeWatch, capTimer := none, capSum := 0, capCount := 0, entryVol := 0
           ref := some ((s.cm.capSum / s.cm.capCount : Nat) : Int), hiStep := 0, loStep := 0
           span := [], secPulses := 0 }))))
     ∧ (∀ r, h.aha.holder = some r →
       let c := exec (.motionTimeout dt) s
       let jog := (∃ sw, r.target = .jog sw) ∧ r.lockWait = none
       (r.left ≠ some 0 → c = .next (lcService h))
       ∧ (r.left = some 0 → jog →
         c = .next (finish (endHolder (.complete r .jogEnd) h)))
       ∧ (r.left = some 0 → ¬jog →
         c = .next (finish (endHolder (.failed r .timeout 0) h)))
       ∧ ∀ o, r.left = some 0 → r.client = .handling → (∀ sw, r.target ≠ .jog sw) → r.fn ≠ .index →
         s.aha.stack = [] → s.aha.waiting = [] → s.hs.op = some o → s.hs.seq = .running →
         c = .next (lcService (((h.setAha ⟨none, [], [], none⟩).setHs
           { h.hs with
             seq := .faulted, cause := some (.fault r.fn .timeout), stall := none }).raise
               (.opFault o.op o.stage r.fn .timeout))))
     ∧ (h.hs.stall ≠ some 0 → exec (.stallTimerExpiry dt) s = .next (lcService h))
     ∧ (∀ o, h.hs.stall = some 0 → s.hs.op = some o → exec (.stallTimerExpiry dt) s =
       .next (lcService ((h.setHs { h.hs with stall := none }).raise
         (.opHeld o.op o.stage .stall none))))
     ∧ ∀ pre e post, s.dib.queue = pre ++ e :: post → (∀ x ∈ pre, x.graceDue = false) →
       e.graceDue = true → exec (.graceExpiry dt) s = .next (lcService (testHead (h.setDib
         { s.dib with queue := pre ++ { e with graceDue := false, graceOver := true } :: post }))))
  ∧ ∀ u : State,
      (u.dib.queue = [] → testHead u = u)
      ∧ ∀ e rest, u.dib.queue = e :: rest →
        let ready := e.flush = true ∨ (e.st ≠ .awaiting ∧ (e.iv.final = true ∨ e.graceOver = true))
        let given := handOver .interval e.iv.job (e.body u.tps.clock) false (some e.iv.number) u
        (¬ready → testHead u = u)
        ∧ (∀ v, ready → given = (v, none) → testHead u = v)
        ∧ (∀ v n, ready → given = (v, some n) →
          testHead u = testHead (v.setDib { u.dib with queue := rest }))

/-! ## The store and the supply -/

/-- The writer's own events, each at the end of its time. An erase leaves every byte of its sector
erased and no other touched, the sector ERASED, and begins the program it was made for (R125, R129). A
block program lays the block's pattern, moves the head, notes the sector's first record and begins the
next block; after a queue's record's last block the record takes the verify slot, its place is free, and
the read-back begins (R128, R131, R134). The writer, idle, takes the record of the verify slot, or else
the oldest of the queue, and places it: a fresh-sector record at a sector's start on its first attempt,
a record that does not fit its sector at the next, and an IN USE or RE-ERASE sector is erased ahead, its
records no longer readable (R129, R132, R133). A record handed over joins the queue with the next
number; it is not taken with four in the queue or before the store is ready, nor past the last number,
which raises STORE FAULT once (R130). A freed place is told to the builder, the billing unit, whose
outbox is handed over oldest first, and the supervisor, with its held RECOVERY record (R131, R165,
R197). What cells read is an operand, and the time of each row is the model's (logs 2 and 5). -/
def Obligations.TheWriterErasesAndPrograms : Prop :=
  (∀ (dt : Nat) (s : State), s.awake →
     let h := s.elapse dt
     (h.rws.timer ≠ some 0 →
       exec (.eraseComplete dt) s = .next (lcService h)
       ∧ exec (.blockProgramComplete dt) s = .next (lcService h)
       ∧ exec (.voidComplete dt) s = .next (lcService h)
       ∧ ∀ cells, exec (.verifyBlockRead dt cells) s = .next (lcService h))
     ∧ (∀ sec, s.rws.wst = .erasing sec → h.rws.timer = some 0 → s.rws.recovering ≠ some .clearing →
       let store := eraseSector s.rws.store sec
       exec (.eraseComplete dt) s = .next (lcService (h.setRws
         { s.rws with
           store := store, sectors := s.rws.sectors.set sec .erased
           halfErased := s.rws.halfErased.filter (· != sec), wst := .programming, timer := some 2 }))
       ∧ (∀ a, a / 256 = sec → blockAt store a = Block.erased a)
       ∧ ∀ a, a / 256 ≠ sec → blockAt store a = blockAt s.rws.store a)
     ∧ ∀ w rec, s.rws.wst = .programming → h.rws.timer = some 0 → s.rws.write = some w →
       w.voiding = none → s.rws.inHand = some rec →
       let c := exec (.blockProgramComplete dt) s
       let addr := w.start + w.done
       let r :=
         { s.rws with
           store := programBlock s.rws.store addr (rec.pattern w.done)
           head := (addr + 1) % 8192
           sectors := if w.done = 0 ∧ s.rws.sectors.getD (addr / 256) .erased = Sector.erased then
               s.rws.sectors.set (addr / 256) (.inUse (some rec.seq))
             else s.rws.sectors }
       (w.done + 1 < rec.blocks → c = .next (lcService (h.setRws
         { r with write := some { w with done := w.done + 1 }, wst := .programming, timer := some 2 })))
       ∧ (rec.blocks ≤ w.done + 1 →
         let v := { w with
           src := .slot, done := w.done + 1, readBlocks := 0, weak := 0, readData := [], mark := none }
         (w.src = .slot → c = .next (lcService (h.setRws
           { r with write := some v, wst := .verifying, timer := some 1 })))
         ∧ ∀ rest, w.src = .queue → s.rws.queue = rec :: rest →
           c = .next (lcService (freedPlace (h.setRws
             { r with
               queue := rest, slot := some rec, write := some v, wst := .verifying, timer := some 1 })))))
  ∧ (∀ (first : Bool) (r : Rws) (w : Write) (rec : Record), r.write = some w →
      (w.src = .queue ∧ r.queue.head? = some rec) ∨ (w.src = .slot ∧ r.slot = some rec) →
      let h1 := if first = true ∧ rec.fresh = true ∧ r.head % 256 ≠ 0 then
        (r.head / 256 + 1) % 32 * 256 else r.head
      let h2 := if 256 - h1 % 256 < rec.blocks then (h1 / 256 + 1) % 32 * 256 else h1
      let t := { r with
        head := h2, write := some { w with start := h2, done := 0, voiding := none, mark := none } }
      let left := r.readable.filter (fun x => x.addr / 256 != h2 / 256)
      (h2 % 256 ≠ 0 ∨ r.sectors.getD (h2 / 256) .erased = .erased →
        placeWrite first r = { t with wst := .programming, timer := some 2 })
      ∧ (h2 % 256 = 0 → r.sectors.getD (h2 / 256) .erased ≠ .erased →
        placeWrite first r = { t with
          readable := left, earliest := (left.map Readable.seq).min?
          sectors := r.sectors.set (h2 / 256) .reErase
          halfErased := if h2 / 256 ∈ r.halfErased then r.halfErased else h2 / 256 :: r.halfErased
          wst := .erasing (h2 / 256), timer := some 350 }))
  ∧ (∀ r : Rws,
      let free := r.wst = .idle ∧ r.recovering = none ∧ r.scanning = false ∧ r.write = none
      let taken := fun src : Source => { r with write := some ⟨src, 0, 0, 0, none, none, 0, 0, []⟩ }
      (¬free → writerTest r = r)
      ∧ (free → r.slot ≠ none → writerTest r = placeWrite false (taken .slot))
      ∧ (free → r.slot = none → r.queue = [] → writerTest r = r)
      ∧ (free → r.slot = none → r.queue ≠ [] → writerTest r = placeWrite true (taken .queue)))
  ∧ (∀ (kind : RKind) (job : Nat) (body : List Byte) (fresh : Bool) (item : Option Nat) (u : State),
      let given := handOver kind job body fresh item u
      let n := u.rws.nextSeq
      (u.rws.accepting = false → given = (u, none))
      ∧ (u.rws.accepting = true → 4294967295 < n → u.rws.exhausted = true → given = (u, none))
      ∧ (u.rws.accepting = true → 4294967295 < n → u.rws.exhausted = false → given =
        ((u.setRws { u.rws with exhausted := true }).raise (.storeFault .sequenceExhausted none none),
          none))
      ∧ (n ≤ 4294967295 → 4 ≤ u.rws.queue.length → given = (u, none))
      ∧ (u.rws.accepting = true → n ≤ 4294967295 → u.rws.queue.length < 4 → given =
        (u.setRws (writerTest
          { u.rws with
            nextSeq := n + 1
            queue := u.rws.queue
              ++ [⟨kind, n, job, blocksFor body.length, u.tps.clock, body, fresh, item⟩] }), some n)))
  ∧ ∀ u : State,
      freedPlace u = tpsFreed (buFreed (testHead u))
      ∧ (u.bu.outbox = [] → buFreed u = u)
      ∧ (∀ r rest, u.bu.outbox = r :: rest →
        let given := match r with
          | .jobOpened job body => handOver .jobOpened job body true none u
          | .ticket number job body => handOver .ticket job body false (some number) u
        let tickets := fun q : Nat => match r with
          | .jobOpened _ _ => u.bu.tickets
          | .ticket number _ _ => u.bu.tickets.map (fun t => { t with
              recSeq := if t.number = number then some q else t.recSeq })
        (∀ v, given = (v, none) → buFreed u = v)
        ∧ ∀ v q, given = (v, some q) →
          buFreed u = buFreed (v.setBu { u.bu with outbox := rest, tickets := tickets q }))
      ∧ (u.tps.heldRecovery = none → tpsFreed u = u)
      ∧ ∀ r, u.tps.heldRecovery = some r →
        let given := handOver .recovery r.job r.body false none u
        (∀ v, given = (v, none) → tpsFreed u = v)
        ∧ ∀ v q, given = (v, some q) → tpsFreed u = v.setTps { u.tps with heldRecovery := none }

/-- The read-back and what follows it. A block whose rows all pass is read on; after the last block a
sum that matches, behind the validity byte, makes the record readable, with STORE WEAK where rows were
weak; a row that fails at both levels, or a sum or validity byte that does not match, begins the void
(R135, R136, R137). After the void of a failed record its first two failures are rewritten at the head,
a third writes a LOST record in its place, and a LOST record's third is abandoned (R137, R138). After a
write the writer tests for the next (R132), or its warm recovery has ended and is reported to the blocks
and to the supervisor (R131). A warm recovery first erases a sector in RE-ERASE; then a write all of
whose blocks were programmed is verified, one with none programmed is placed again, one cut short is
voided and placed again, one marked to be rewritten is rewritten, or on its third failure given up as
above, and one that waited for the erase goes on (R142). That the freed-place report comes before the
report to the supervisor is the model's choice (log 8), and what cells read is an operand (log 5). -/
def Obligations.TheWriterVerifiesAndRewrites : Prop :=
  (∀ (dt : Nat) (s : State) (w : Write) (rec : Record), s.awake → (s.elapse dt).rws.timer = some 0 →
     s.rws.write = some w →
     let h := s.elapse dt
     (∀ cells, s.rws.wst = .verifying → s.rws.slot = some rec →
       let c := exec (.verifyBlockRead dt cells) s
       let addr := w.start + w.readBlocks
       let store := ageBlock s.rws.store addr cells
       let rows := readRows (blockAt store addr)
       let weak := w.weak + (rows.filter RowRead.isWeak).length
       let data := w.readData ++ rows.flatMap RowRead.data
       let good := sumMatches data = true ∧ data.head? = some 0x5A#8
       let failed := c = .next (lcService (h.setRws
         { s.rws with
           store := store, wst := .programming, timer := some 2
           write := some { w with voiding := some .failure, mark := none } }))
       ((∃ x ∈ rows, x.isFailed = true) → failed)
       ∧ ((∀ x ∈ rows, x.isFailed = false) →
         (w.readBlocks + 1 < rec.blocks → c = .next (lcService (h.setRws
           { s.rws with
             store := store, timer := some 1
             write := some { w with readBlocks := w.readBlocks + 1, weak := weak, readData := data } })))
         ∧ (rec.blocks ≤ w.readBlocks + 1 → ¬good → failed)
         ∧ (rec.blocks ≤ w.readBlocks + 1 → good →
           let readable := s.rws.readable
             ++ [⟨w.start, rec.kind, rec.seq, rec.job, rec.blocks, rec.ts⟩]
           let t := if weak = 0 then h else h.raise (.storeWeak rec.kind rec.seq weak)
           c = .next (finish (writerGoesOn (t.setRws
             { s.rws with
               store := store, readable := readable, earliest := (readable.map Readable.seq).min?
               wst := .idle, timer := none, write := none, slot := none }))))))
     ∧ (s.rws.wst = .programming → w.src = .slot → s.rws.slot = some rec → w.voiding = some .failure →
       let c := exec (.voidComplete dt) s
       let r := { h.rws with store := programBlock s.rws.store w.start voidPattern }
       (w.attempts < 2 → c = .next (finish (writerGoesOn (h.setRws (placeWrite false
         { r with write := some { w with attempts := w.attempts + 1 } })))))
       ∧ (2 ≤ w.attempts → rec.kind ≠ .lost →
         let body := be 1 rec.kind.code ++ be 4 rec.ts ++ opt0 4 rec.item
         let lost : Record :=
           ⟨.lost, rec.seq, rec.job, blocksFor body.length, s.tps.clock, body, false, none⟩
         c = .next (finish (writerGoesOn ((h.setRws (placeWrite false
           { r with slot := some lost, write := some ⟨.slot, 0, 0, 0, none, none, 0, 0, []⟩ })).raise
             (.storeFault .lostWritten (some rec.kind) (some rec.seq))))))
       ∧ (2 ≤ w.attempts → rec.kind = .lost → c = .next (finish (writerGoesOn ((h.setRws
         { r with wst := .idle, timer := none, write := none, slot := none }).raise
           (.storeFault .abandoned none (some rec.seq)))))))
     ∧ (s.rws.wst = .programming → w.voiding = some .cutShort →
       exec (.voidComplete dt) s = .next (finish (writerGoesOn (h.setRws (placeWrite false
         { h.rws with store := programBlock s.rws.store w.start voidPattern }))))))
  ∧ (∀ u : State,
      let ended := u.rws.recovering = some .finishing ∧ u.rws.wst = .idle ∧ u.rws.write = none
      (¬ended → writerGoesOn u = u.setRws (writerTest u.rws))
      ∧ (ended →
        let v := freedPlace (u.setRws { u.rws with recovering := none, accepting := true })
        let w := tryEndStartUp (v.setTps { v.tps with storeReported := true })
        writerGoesOn u = w.setRws (writerTest w.rws)))
  ∧ (∀ u : State,
      let r := { u.rws with
        recovering := some .finishing, accepting := false, scanning := false, wst := .idle, timer := none }
      (∀ k, u.rws.sectors[k]? = some .reErase → (∀ j, j < k → u.rws.sectors[j]? ≠ some .reErase) →
        let left := u.rws.readable.filter (fun x => x.addr / 256 != k)
        recoverStart u = u.setRws
          { u.rws with
            recovering := some .clearing, accepting := false, scanning := false
            readable := left, earliest := (left.map Readable.seq).min?
            halfErased := if k ∈ u.rws.halfErased then u.rws.halfErased else k :: u.rws.halfErased
            wst := .erasing k, timer := some 350 })
      ∧ ((∀ x ∈ u.rws.sectors, x ≠ .reErase) →
        (u.rws.write = none → recoverStart u = u.setRws r)
        ∧ ∀ w rec, u.rws.write = some w →
          (w.src = .queue ∧ u.rws.queue.head? = some rec) ∨ (w.src = .slot ∧ u.rws.slot = some rec) →
          (w.mark = some .unverified →
            (rec.blocks ≤ w.done → recoverStart u = u.setRws
              { r with
                wst := .verifying, timer := some 1
                write := some { w with
                  readBlocks := 0, weak := 0, readData := [], voiding := none, mark := none } })
            ∧ (w.done < rec.blocks → w.done = 0 → recoverStart u = u.setRws (placeWrite false r))
            ∧ (w.done < rec.blocks → w.done ≠ 0 → recoverStart u = u.setRws
              { r with
                wst := .programming, timer := some 2
                write := some { w with voiding := some .cutShort, mark := none } }))
          ∧ (w.mark = some (.rewrite .failure) → w.attempts < 2 → recoverStart u =
            u.setRws (placeWrite false
              { r with write := some { w with attempts := w.attempts + 1, src := .slot } }))
          ∧ (w.mark = some (.rewrite .failure) → 2 ≤ w.attempts → rec.kind ≠ .lost →
            let body := be 1 rec.kind.code ++ be 4 rec.ts ++ opt0 4 rec.item
            let lost : Record :=
              ⟨.lost, rec.seq, rec.job, blocksFor body.length, u.tps.clock, body, false, none⟩
            recoverStart u = (u.setRws (placeWrite false
              { r with slot := some lost, write := some ⟨.slot, 0, 0, 0, none, none, 0, 0, []⟩ })).raise
                (.storeFault .lostWritten (some rec.kind) (some rec.seq)))
          ∧ (w.mark = some (.rewrite .failure) → 2 ≤ w.attempts → rec.kind = .lost →
            recoverStart u = (u.setRws { r with write := none, slot := none }).raise
              (.storeFault .abandoned none (some rec.seq)))
          ∧ (w.mark = some (.rewrite .cutShort) → recoverStart u = u.setRws (placeWrite false r))
          ∧ (w.mark = none → recoverStart u = u.setRws
            { r with wst := .programming, timer := some 2 })))
  ∧ ∀ (dt sec : Nat) (s : State), s.awake → s.rws.wst = .erasing sec → (s.elapse dt).rws.timer = some 0 →
      s.rws.recovering = some .clearing →
      let h := s.elapse dt
      exec (.eraseComplete dt) s = .next (finish (writerGoesOn (recoverStart (h.setRws
        { h.rws with
          store := eraseSector s.rws.store sec, sectors := s.rws.sectors.set sec .erased
          halfErased := s.rws.halfErased.filter (· != sec) }))))

/-- The cold start's scan. A block begins an accepted record exactly where its first row reads at either
level, its validity byte is 5AH, its header gives a known kind and 1 to 8 blocks that fit its sector,
every row of them reads and their sum matches; the scan steps over an accepted record's blocks, over a
voided one's where their count can be read (log 32), and else one block on, and passes a sector whose
erase was cut short (R143, log 5). The accepted record of the highest number gives the next number, one
past it, and the head, the block after it, or block 0 of the sector after where a block from there to
its sector's end does not read erased (log 15). In store order from the sector after the head's, a
record is kept and readable exactly where its number is above that of every one kept before it, and all
others are voided; with the top number found all are (R127). That the whole of the head's sector comes
last, and that a record of number 0 is voided, is the model's (log 47). A sector all of whose blocks
read erased is ERASED, and another is IN USE from the first kept record that begins in it (R128). The
end reports to the blocks and to the supervisor (R131, R195), in this order by the model's choice (log
8); with no scan running it does nothing, which is the model's (log 9). What cells read is an operand
(log 5). -/
def Obligations.TheScanRebuildsTheIndex : Prop :=
  (∀ (dt : Nat) (cells : List (Nat × CellRead)) (s : State), s.awake →
    let h := s.elapse dt
    let c := exec (.coldStartScanEnd dt cells) s
    let r := scanEnd { h.rws with store := cells.foldl (fun st x => ageBlock st x.1 [x.2]) s.rws.store }
    let t := freedPlace (h.setRws { r with recovering := none, accepting := true })
    let u := tryEndStartUp (t.setTps { t.tps with storeReported := true })
    (s.rws.scanning = false → c = .next (lcService h))
    ∧ (s.rws.scanning = true → c = .next (finish (u.setRws (writerTest u.rws))))
    ∧ (s.rws.scanning = true → s.dib.queue = [] → s.bu.outbox = [] → s.tps.heldRecovery = none →
      s.tps.inputsReported = false → s.rws.queue = [] → s.rws.slot = none →
      c = .next (lcService ((h.setRws { r with recovering := none, accepting := true }).setTps
        { s.tps with storeReported := true }))))
  ∧ (∀ (store : List Block) (b : Block) (x : Readable), blockAt store b.addr = b →
      b.normal.length = 64 → b.margin.length = 64 →
      let data := fun a : Nat => (readRows (blockAt store a)).flatMap RowRead.data
      let head := data b.addr
      let n := (head.getD 10 0).toNat
      (scanAccept store b = some x ↔
        (readRow b 0).isFailed = false ∧ head.getD 0 0 = 0x5A#8
        ∧ RKind.ofCode (head.getD 1 0).toNat = some x.kind ∧ 1 ≤ n ∧ n ≤ 8 ∧ b.addr % 256 + n ≤ 256
        ∧ (∀ k ∈ List.range n, ∀ row ∈ readRows (blockAt store (b.addr + k)), row.isFailed = false)
        ∧ sumMatches ((List.range n).flatMap (fun k => data (b.addr + k))) = true
        ∧ x = ⟨b.addr, x.kind, fromBe ((head.drop 2).take 4), fromBe ((head.drop 6).take 4), n,
          fromBe ((head.drop 11).take 4)⟩))
  ∧ (∀ (store rest : List Block) (half : List Nat) (b : Block) (skip : Nat),
      b.normal.length = 64 → b.margin.length = 64 →
      let head := (readRows b).flatMap RowRead.data
      let n := (head.getD 10 0).toNat
      let voided := head.getD 0 0 = 0 ∧ (readRow b 1).isFailed = false ∧ 1 ≤ n ∧ n ≤ 8
        ∧ b.addr % 256 + n ≤ 256
      scanFrom store half [] skip = []
      ∧ (b.addr < skip ∨ b.addr / 256 ∈ half →
        scanFrom store half (b :: rest) skip = scanFrom store half rest skip)
      ∧ (skip ≤ b.addr → b.addr / 256 ∉ half →
        (∀ x, scanAccept store b = some x →
          scanFrom store half (b :: rest) skip = x :: scanFrom store half rest (b.addr + x.blocks))
        ∧ (scanAccept store b = none → scanFrom store half (b :: rest) skip =
          scanFrom store half rest (b.addr + if voided then n else 1))))
  ∧ ∀ r : Rws, storeWf r.store = true →
      let found := scanFrom r.store r.halfErased r.store 0
      let e := scanEnd r
      let erased := fun a : Nat => (blockAt r.store a).normal = List.replicate 64 0xFF#8
      let key := fun x : Readable => (x.addr / 256 + 31 - e.head / 256) % 32 * 256 + x.addr % 256
      (found = [] → e.head = 0 ∧ e.nextSeq = 1 ∧ e.readable = [])
      ∧ (∀ x, x ∈ found → (∀ y ∈ found, y = x ∨ y.seq < x.seq) →
        let h := (x.addr + x.blocks) % 8192
        let free := h / 256 ∉ r.halfErased
          ∧ ∀ a ∈ List.range 256, h ≤ h / 256 * 256 + a → erased (h / 256 * 256 + a)
        (free → e.head = h) ∧ (¬free → e.head = (h / 256 + 1) % 32 * 256)
        ∧ (x.seq = 4294967295 → e.nextSeq = 1 ∧ e.readable = [])
        ∧ (x.seq ≠ 4294967295 → e.nextSeq = x.seq + 1
          ∧ ∀ z ∈ found, 0 < z.seq →
            (z ∈ e.readable ↔ ∀ y ∈ e.readable, key y < key z → y.seq < z.seq)))
      ∧ e.readable.Pairwise (fun x y => x.seq < y.seq ∧ key x < key y)
      ∧ (∀ x ∈ e.readable, x ∈ found) ∧ e.earliest = (e.readable.map Readable.seq).min?
      ∧ (∀ a : Nat, blockAt e.store a =
        if ∃ x ∈ found, x ∉ e.readable ∧ x.addr = a then
          blockAt (programBlock r.store a voidPattern) a
        else blockAt r.store a)
      ∧ (∀ k ∈ List.range 32, e.sectors[k]? = some
        (if k ∉ r.halfErased ∧ ∀ a ∈ List.range 256, erased (k * 256 + a) then .erased
          else .inUse ((e.readable.find? (fun x => x.addr / 256 == k)).map Readable.seq)))
      ∧ e.sectors.length = 32 ∧ e.scanning = false ∧ e.queue = r.queue ∧ e.write = r.write

/-- The power-fail warning: the loss second is recorded, unless a recovery is pending; every valve is
centred, the arbiter emptied and group 1 disarmed; a sequencer that is not IDLE is INTERRUPTED; the
category in force, or STANDBY before the first tick since a start, is the loss category; the line stops;
and the writer stops with its write in hand as R141 marks it (R75, R101, R141, R157, R190, R192), a
block program in progress ending first: after a record's first block an ERASED sector is IN USE with its
number (R128). While the part is held in reset, every command but a raw change, a second tick and the
return of power leaves the state as it is (R192; logs 2 and 3). The loss category before the first tick
is the model's reading (log 19). -/
def Obligations.TheWarningHoldsEverythingAndResetActsOnNothing : Prop :=
  (∀ (dt : Nat) (s : State), s.tps.phase ≠ .off →
     let h := s.elapse dt
     let r := rwsPowerFail h.rws
     let still := { s.rws with wst := .idle, timer := none, accepting := false, recovering := none }
     exec (.powerFailWarning dt) s = .next
       { h with
         sfe := { h.sfe with g1 := ⟨0, 0, 0, s.sfe.g1.flag⟩ }
         aha := ⟨none, [], [], none⟩
         hs := if s.hs.seq = .idle then h.hs else
           { s.hs with seq := .interrupted, cause := none, stall := none }
         rws := r
         bu := { s.bu with lossCat := some (if s.cm.win = none then .standby else s.bu.category) }
         lc := { s.lc with
           locked := false, trial := s.lc.lastRate, silence := none, collect := none, byteTimer := none
           rx := [], tx := none, built := none, holdTake := false, clearing := false }
         tps := { s.tps with
           phase := .off, recoveryPending := true
           lossSec := if s.tps.recoveryPending then s.tps.lossSec else some s.tps.clock }
         reports := [] }
     ∧ (s.rws.wst = .idle ∨ (∃ sec, s.rws.wst = .erasing sec) → r = still)
     ∧ ∀ w, s.rws.write = some w →
       (s.rws.wst = .verifying → r = { still with
         write := some { w with mark := some .unverified, readBlocks := 0, weak := 0, readData := [] } })
       ∧ (∀ why, s.rws.wst = .programming → w.voiding = some why → r = { still with
         store := programBlock s.rws.store w.start voidPattern
         write := some { w with voiding := none, mark := some (.rewrite why) } })
       ∧ ∀ rec, s.rws.wst = .programming → w.voiding = none → s.rws.inHand = some rec →
         r.store = programBlock s.rws.store (w.start + w.done) (rec.pattern w.done)
         ∧ r.head = (w.start + w.done + 1) % 8192 ∧ r.accepting = false
         ∧ r.wst = .idle ∧ r.timer = none ∧ r.recovering = none
         ∧ (let sec := (w.start + w.done) / 256
           r.sectors = if w.done = 0 ∧ s.rws.sectors.getD sec .erased = .erased then
             s.rws.sectors.set sec (.inUse (some rec.seq)) else s.rws.sectors)
         ∧ (rec.blocks ≤ w.done + 1 → w.src = .slot →
           r.write = some { w with done := w.done + 1, mark := some .unverified }
             ∧ r.queue = s.rws.queue ∧ r.slot = s.rws.slot)
         ∧ (w.done + 1 < rec.blocks →
           r.write = some { w with done := w.done + 1, mark := some .unverified }
             ∧ r.queue = s.rws.queue ∧ r.slot = s.rws.slot)
         ∧ ∀ rest, rec.blocks ≤ w.done + 1 → w.src = .queue → s.rws.queue = rec :: rest →
           r.write = some { w with done := w.done + 1, mark := some .unverified, src := .slot }
             ∧ r.queue = rest ∧ r.slot = some rec)
  ∧ (∀ (c : Instr) (s : State), s.tps.phase = .off →
       (∀ dt sw on, c ≠ .switchRawChange dt sw on) → (∀ dt, c ≠ .secondTick dt) →
       (∀ dt secs b, c ≠ .powerUp dt secs b) → exec c s = .next s)

/-- Power returns. With retained memory invalid the start is cold: everything takes its cold value but
the store, the wiring and the commands that wait. With it valid the start is warm: the head height
preset is 0, the inputs are acquired afresh, the monitor is IDLE with its latches, flow check and
cumulative volume, a divert that was requested has FAILED, the loader waits, the arbiter is empty, the
depth is HELD under the depth hold and in FAULT without it, the link hunts from the last locked rate,
every SENT kind is PENDING, and the sequencer, the billing unit, the sample queue and the held RECOVERY
record stand (R43, R62, R75, R103, R124, R175, R190, R193, R194, R195). The store begins its warm
recovery, whose steps O57 spells and whose end, where nothing is to be done, comes at once (R142). While
the part runs, the event does nothing, which is the model's (log 9). How the seconds without power reach
the clock is the model's (log 26). -/
def Obligations.PowerReturnsColdOrWarm : Prop :=
  ∀ (dt secs : Nat) (b : Bool) (s : State),
    let c := exec (.powerUp dt secs b) s
    (s.tps.phase ≠ .off → c = .next s)
    ∧ (s.tps.phase = .off → s.tps.valid = false ∨ b = false →
      c = .next { State.reset with
        sfe := .reset s.sfe.raw
        rws := { Rws.reset with store := s.rws.store, halfErased := s.rws.halfErased }
        pending := s.pending })
    ∧ (s.tps.phase = .off → s.tps.valid = true → b = true →
      let w : State :=
        { s with
          sfe := .reset s.sfe.raw, params := s.params.set 16 0, aha := ⟨none, [], [], none⟩
          cm := { Cm.reset with
            lossLatch := s.cm.lossLatch, gainLatch := s.cm.gainLatch, cum := s.cm.cum
            divert := if s.cm.divert = .requested then .failed else s.cm.divert
            fcResult := s.cm.fcResult, fcSecond := s.cm.fcSecond, fcVolume := s.cm.fcVolume }
          rrc := { s.rrc with loader := s.rrc.loader.map (fun o => { o with phase := .waiting }) }
          dib := { s.dib with
            dstate := if s.hs.depthHold then .held else .fault, encFaulted := true, headLast := none }
          lc := { Lc.reset with
            trial := s.lc.lastRate, lastRate := s.lc.lastRate, mask := s.lc.mask
            notices := s.lc.notices.map (fun n =>
              { n with st := (if n.st = .sent then .waiting else n.st), again := false }) }
          tps := { s.tps with
            clock := (s.tps.clock + secs) % 2 ^ 32, phase := .startUp, inputsReported := false
            storeReported := false, startKind := .warm, startEnd := none }
          reports := [] }
      let u := recoverStart w
      let ended := u.rws.recovering = some .finishing ∧ u.rws.wst = .idle ∧ u.rws.write = none
      let third := ∃ v, s.rws.write = some v ∧ v.mark = some (.rewrite .failure) ∧ 2 ≤ v.attempts
      u = { w with rws := u.rws, lc := u.lc } ∧ (¬third → u = w.setRws u.rws)
      ∧ (¬ended → c = .next u) ∧ (ended → c = .next (writerGoesOn u)))
    ∧ (s.tps.phase = .off → s.tps.valid = true → b = true → ∃ t, c = .next t
      ∧ t.sfe = .reset s.sfe.raw ∧ t.params = s.params.set 16 0 ∧ t.aha = ⟨none, [], [], none⟩
      ∧ t.hs = s.hs
      ∧ t.cm = { Cm.reset with
        lossLatch := s.cm.lossLatch, gainLatch := s.cm.gainLatch, cum := s.cm.cum
        divert := if s.cm.divert = .requested then .failed else s.cm.divert
        fcResult := s.cm.fcResult, fcSecond := s.cm.fcSecond, fcVolume := s.cm.fcVolume }
      ∧ t.rrc = { s.rrc with loader := s.rrc.loader.map (fun o => { o with phase := .waiting }) }
      ∧ t.dib.dstate = (if s.hs.depthHold then .held else .fault) ∧ t.dib.depth = s.dib.depth
      ∧ t.dib.hwm = s.dib.hwm ∧ t.dib.offset = s.dib.offset ∧ t.dib.openIv = s.dib.openIv
      ∧ t.bu.jobSt = s.bu.jobSt ∧ t.bu.job = s.bu.job ∧ t.bu.openSecs = s.bu.openSecs
      ∧ t.bu.totals = s.bu.totals ∧ t.bu.since = s.bu.since ∧ t.bu.tariffs = s.bu.tariffs
      ∧ t.bu.breakdown = s.bu.breakdown ∧ t.bu.lossCat = s.bu.lossCat
      ∧ t.lc.locked = false ∧ t.lc.trial = s.lc.lastRate ∧ t.lc.mask = s.lc.mask
      ∧ t.tps.phase = .startUp ∧ t.tps.startKind = .warm ∧ t.tps.startEnd = none
      ∧ t.tps.clock = (s.tps.clock + secs) % 2 ^ 32 ∧ t.tps.lossSec = s.tps.lossSec)

end
end

