-- ==== Sys2Proof/Laws/State.lean ====
section
/-! SUPPORT. One lemma per field for each replacement of a block, and for `raise`, `storeParam`,
`setGroup` and `elapse`. -/

namespace Sys2Proof.Machine

/-! ## setSfe -/

section
variable (s : State) (x : Sfe)

@[simp] theorem State.setSfe_sfe : (s.setSfe x).sfe = x := rfl
@[simp] theorem State.setSfe_cm : (s.setSfe x).cm = s.cm := rfl
@[simp] theorem State.setSfe_rrc : (s.setSfe x).rrc = s.rrc := rfl
@[simp] theorem State.setSfe_aha : (s.setSfe x).aha = s.aha := rfl
@[simp] theorem State.setSfe_hs : (s.setSfe x).hs = s.hs := rfl
@[simp] theorem State.setSfe_dib : (s.setSfe x).dib = s.dib := rfl
@[simp] theorem State.setSfe_rws : (s.setSfe x).rws = s.rws := rfl
@[simp] theorem State.setSfe_bu : (s.setSfe x).bu = s.bu := rfl
@[simp] theorem State.setSfe_lc : (s.setSfe x).lc = s.lc := rfl
@[simp] theorem State.setSfe_tps : (s.setSfe x).tps = s.tps := rfl
@[simp] theorem State.setSfe_params : (s.setSfe x).params = s.params := rfl
@[simp] theorem State.setSfe_reports : (s.setSfe x).reports = s.reports := rfl
@[simp] theorem State.setSfe_pending : (s.setSfe x).pending = s.pending := rfl
@[simp] theorem State.setSfe_setSfe (y : Sfe) : (s.setSfe x).setSfe y = s.setSfe y := rfl

end

/-! ## setCm -/

section
variable (s : State) (x : Cm)

@[simp] theorem State.setCm_sfe : (s.setCm x).sfe = s.sfe := rfl
@[simp] theorem State.setCm_cm : (s.setCm x).cm = x := rfl
@[simp] theorem State.setCm_rrc : (s.setCm x).rrc = s.rrc := rfl
@[simp] theorem State.setCm_aha : (s.setCm x).aha = s.aha := rfl
@[simp] theorem State.setCm_hs : (s.setCm x).hs = s.hs := rfl
@[simp] theorem State.setCm_dib : (s.setCm x).dib = s.dib := rfl
@[simp] theorem State.setCm_rws : (s.setCm x).rws = s.rws := rfl
@[simp] theorem State.setCm_bu : (s.setCm x).bu = s.bu := rfl
@[simp] theorem State.setCm_lc : (s.setCm x).lc = s.lc := rfl
@[simp] theorem State.setCm_tps : (s.setCm x).tps = s.tps := rfl
@[simp] theorem State.setCm_params : (s.setCm x).params = s.params := rfl
@[simp] theorem State.setCm_reports : (s.setCm x).reports = s.reports := rfl
@[simp] theorem State.setCm_pending : (s.setCm x).pending = s.pending := rfl
@[simp] theorem State.setCm_setCm (y : Cm) : (s.setCm x).setCm y = s.setCm y := rfl

end

/-! ## setRrc -/

section
variable (s : State) (x : Rrc)

@[simp] theorem State.setRrc_sfe : (s.setRrc x).sfe = s.sfe := rfl
@[simp] theorem State.setRrc_cm : (s.setRrc x).cm = s.cm := rfl
@[simp] theorem State.setRrc_rrc : (s.setRrc x).rrc = x := rfl
@[simp] theorem State.setRrc_aha : (s.setRrc x).aha = s.aha := rfl
@[simp] theorem State.setRrc_hs : (s.setRrc x).hs = s.hs := rfl
@[simp] theorem State.setRrc_dib : (s.setRrc x).dib = s.dib := rfl
@[simp] theorem State.setRrc_rws : (s.setRrc x).rws = s.rws := rfl
@[simp] theorem State.setRrc_bu : (s.setRrc x).bu = s.bu := rfl
@[simp] theorem State.setRrc_lc : (s.setRrc x).lc = s.lc := rfl
@[simp] theorem State.setRrc_tps : (s.setRrc x).tps = s.tps := rfl
@[simp] theorem State.setRrc_params : (s.setRrc x).params = s.params := rfl
@[simp] theorem State.setRrc_reports : (s.setRrc x).reports = s.reports := rfl
@[simp] theorem State.setRrc_pending : (s.setRrc x).pending = s.pending := rfl
@[simp] theorem State.setRrc_setRrc (y : Rrc) : (s.setRrc x).setRrc y = s.setRrc y := rfl

end

/-! ## setAha -/

section
variable (s : State) (x : Aha)

@[simp] theorem State.setAha_sfe : (s.setAha x).sfe = s.sfe := rfl
@[simp] theorem State.setAha_cm : (s.setAha x).cm = s.cm := rfl
@[simp] theorem State.setAha_rrc : (s.setAha x).rrc = s.rrc := rfl
@[simp] theorem State.setAha_aha : (s.setAha x).aha = x := rfl
@[simp] theorem State.setAha_hs : (s.setAha x).hs = s.hs := rfl
@[simp] theorem State.setAha_dib : (s.setAha x).dib = s.dib := rfl
@[simp] theorem State.setAha_rws : (s.setAha x).rws = s.rws := rfl
@[simp] theorem State.setAha_bu : (s.setAha x).bu = s.bu := rfl
@[simp] theorem State.setAha_lc : (s.setAha x).lc = s.lc := rfl
@[simp] theorem State.setAha_tps : (s.setAha x).tps = s.tps := rfl
@[simp] theorem State.setAha_params : (s.setAha x).params = s.params := rfl
@[simp] theorem State.setAha_reports : (s.setAha x).reports = s.reports := rfl
@[simp] theorem State.setAha_pending : (s.setAha x).pending = s.pending := rfl
@[simp] theorem State.setAha_setAha (y : Aha) : (s.setAha x).setAha y = s.setAha y := rfl

end

/-! ## setHs -/

section
variable (s : State) (x : Hs)

@[simp] theorem State.setHs_sfe : (s.setHs x).sfe = s.sfe := rfl
@[simp] theorem State.setHs_cm : (s.setHs x).cm = s.cm := rfl
@[simp] theorem State.setHs_rrc : (s.setHs x).rrc = s.rrc := rfl
@[simp] theorem State.setHs_aha : (s.setHs x).aha = s.aha := rfl
@[simp] theorem State.setHs_hs : (s.setHs x).hs = x := rfl
@[simp] theorem State.setHs_dib : (s.setHs x).dib = s.dib := rfl
@[simp] theorem State.setHs_rws : (s.setHs x).rws = s.rws := rfl
@[simp] theorem State.setHs_bu : (s.setHs x).bu = s.bu := rfl
@[simp] theorem State.setHs_lc : (s.setHs x).lc = s.lc := rfl
@[simp] theorem State.setHs_tps : (s.setHs x).tps = s.tps := rfl
@[simp] theorem State.setHs_params : (s.setHs x).params = s.params := rfl
@[simp] theorem State.setHs_reports : (s.setHs x).reports = s.reports := rfl
@[simp] theorem State.setHs_pending : (s.setHs x).pending = s.pending := rfl
@[simp] theorem State.setHs_setHs (y : Hs) : (s.setHs x).setHs y = s.setHs y := rfl

end

/-! ## setDib -/

section
variable (s : State) (x : Dib)

@[simp] theorem State.setDib_sfe : (s.setDib x).sfe = s.sfe := rfl
@[simp] theorem State.setDib_cm : (s.setDib x).cm = s.cm := rfl
@[simp] theorem State.setDib_rrc : (s.setDib x).rrc = s.rrc := rfl
@[simp] theorem State.setDib_aha : (s.setDib x).aha = s.aha := rfl
@[simp] theorem State.setDib_hs : (s.setDib x).hs = s.hs := rfl
@[simp] theorem State.setDib_dib : (s.setDib x).dib = x := rfl
@[simp] theorem State.setDib_rws : (s.setDib x).rws = s.rws := rfl
@[simp] theorem State.setDib_bu : (s.setDib x).bu = s.bu := rfl
@[simp] theorem State.setDib_lc : (s.setDib x).lc = s.lc := rfl
@[simp] theorem State.setDib_tps : (s.setDib x).tps = s.tps := rfl
@[simp] theorem State.setDib_params : (s.setDib x).params = s.params := rfl
@[simp] theorem State.setDib_reports : (s.setDib x).reports = s.reports := rfl
@[simp] theorem State.setDib_pending : (s.setDib x).pending = s.pending := rfl
@[simp] theorem State.setDib_setDib (y : Dib) : (s.setDib x).setDib y = s.setDib y := rfl

end

/-! ## setRws -/

section
variable (s : State) (x : Rws)

@[simp] theorem State.setRws_sfe : (s.setRws x).sfe = s.sfe := rfl
@[simp] theorem State.setRws_cm : (s.setRws x).cm = s.cm := rfl
@[simp] theorem State.setRws_rrc : (s.setRws x).rrc = s.rrc := rfl
@[simp] theorem State.setRws_aha : (s.setRws x).aha = s.aha := rfl
@[simp] theorem State.setRws_hs : (s.setRws x).hs = s.hs := rfl
@[simp] theorem State.setRws_dib : (s.setRws x).dib = s.dib := rfl
@[simp] theorem State.setRws_rws : (s.setRws x).rws = x := rfl
@[simp] theorem State.setRws_bu : (s.setRws x).bu = s.bu := rfl
@[simp] theorem State.setRws_lc : (s.setRws x).lc = s.lc := rfl
@[simp] theorem State.setRws_tps : (s.setRws x).tps = s.tps := rfl
@[simp] theorem State.setRws_params : (s.setRws x).params = s.params := rfl
@[simp] theorem State.setRws_reports : (s.setRws x).reports = s.reports := rfl
@[simp] theorem State.setRws_pending : (s.setRws x).pending = s.pending := rfl
@[simp] theorem State.setRws_setRws (y : Rws) : (s.setRws x).setRws y = s.setRws y := rfl

end

/-! ## setBu -/

section
variable (s : State) (x : Bu)

@[simp] theorem State.setBu_sfe : (s.setBu x).sfe = s.sfe := rfl
@[simp] theorem State.setBu_cm : (s.setBu x).cm = s.cm := rfl
@[simp] theorem State.setBu_rrc : (s.setBu x).rrc = s.rrc := rfl
@[simp] theorem State.setBu_aha : (s.setBu x).aha = s.aha := rfl
@[simp] theorem State.setBu_hs : (s.setBu x).hs = s.hs := rfl
@[simp] theorem State.setBu_dib : (s.setBu x).dib = s.dib := rfl
@[simp] theorem State.setBu_rws : (s.setBu x).rws = s.rws := rfl
@[simp] theorem State.setBu_bu : (s.setBu x).bu = x := rfl
@[simp] theorem State.setBu_lc : (s.setBu x).lc = s.lc := rfl
@[simp] theorem State.setBu_tps : (s.setBu x).tps = s.tps := rfl
@[simp] theorem State.setBu_params : (s.setBu x).params = s.params := rfl
@[simp] theorem State.setBu_reports : (s.setBu x).reports = s.reports := rfl
@[simp] theorem State.setBu_pending : (s.setBu x).pending = s.pending := rfl
@[simp] theorem State.setBu_setBu (y : Bu) : (s.setBu x).setBu y = s.setBu y := rfl

end

/-! ## setLc -/

section
variable (s : State) (x : Lc)

@[simp] theorem State.setLc_sfe : (s.setLc x).sfe = s.sfe := rfl
@[simp] theorem State.setLc_cm : (s.setLc x).cm = s.cm := rfl
@[simp] theorem State.setLc_rrc : (s.setLc x).rrc = s.rrc := rfl
@[simp] theorem State.setLc_aha : (s.setLc x).aha = s.aha := rfl
@[simp] theorem State.setLc_hs : (s.setLc x).hs = s.hs := rfl
@[simp] theorem State.setLc_dib : (s.setLc x).dib = s.dib := rfl
@[simp] theorem State.setLc_rws : (s.setLc x).rws = s.rws := rfl
@[simp] theorem State.setLc_bu : (s.setLc x).bu = s.bu := rfl
@[simp] theorem State.setLc_lc : (s.setLc x).lc = x := rfl
@[simp] theorem State.setLc_tps : (s.setLc x).tps = s.tps := rfl
@[simp] theorem State.setLc_params : (s.setLc x).params = s.params := rfl
@[simp] theorem State.setLc_reports : (s.setLc x).reports = s.reports := rfl
@[simp] theorem State.setLc_pending : (s.setLc x).pending = s.pending := rfl
@[simp] theorem State.setLc_setLc (y : Lc) : (s.setLc x).setLc y = s.setLc y := rfl

end

/-! ## setTps -/

section
variable (s : State) (x : Tps)

@[simp] theorem State.setTps_sfe : (s.setTps x).sfe = s.sfe := rfl
@[simp] theorem State.setTps_cm : (s.setTps x).cm = s.cm := rfl
@[simp] theorem State.setTps_rrc : (s.setTps x).rrc = s.rrc := rfl
@[simp] theorem State.setTps_aha : (s.setTps x).aha = s.aha := rfl
@[simp] theorem State.setTps_hs : (s.setTps x).hs = s.hs := rfl
@[simp] theorem State.setTps_dib : (s.setTps x).dib = s.dib := rfl
@[simp] theorem State.setTps_rws : (s.setTps x).rws = s.rws := rfl
@[simp] theorem State.setTps_bu : (s.setTps x).bu = s.bu := rfl
@[simp] theorem State.setTps_lc : (s.setTps x).lc = s.lc := rfl
@[simp] theorem State.setTps_tps : (s.setTps x).tps = x := rfl
@[simp] theorem State.setTps_params : (s.setTps x).params = s.params := rfl
@[simp] theorem State.setTps_reports : (s.setTps x).reports = s.reports := rfl
@[simp] theorem State.setTps_pending : (s.setTps x).pending = s.pending := rfl
@[simp] theorem State.setTps_setTps (y : Tps) : (s.setTps x).setTps y = s.setTps y := rfl

end

/-! ## setParams -/

section
variable (s : State) (x : List Int)

@[simp] theorem State.setParams_sfe : (s.setParams x).sfe = s.sfe := rfl
@[simp] theorem State.setParams_cm : (s.setParams x).cm = s.cm := rfl
@[simp] theorem State.setParams_rrc : (s.setParams x).rrc = s.rrc := rfl
@[simp] theorem State.setParams_aha : (s.setParams x).aha = s.aha := rfl
@[simp] theorem State.setParams_hs : (s.setParams x).hs = s.hs := rfl
@[simp] theorem State.setParams_dib : (s.setParams x).dib = s.dib := rfl
@[simp] theorem State.setParams_rws : (s.setParams x).rws = s.rws := rfl
@[simp] theorem State.setParams_bu : (s.setParams x).bu = s.bu := rfl
@[simp] theorem State.setParams_lc : (s.setParams x).lc = s.lc := rfl
@[simp] theorem State.setParams_tps : (s.setParams x).tps = s.tps := rfl
@[simp] theorem State.setParams_params : (s.setParams x).params = x := rfl
@[simp] theorem State.setParams_reports : (s.setParams x).reports = s.reports := rfl
@[simp] theorem State.setParams_pending : (s.setParams x).pending = s.pending := rfl
@[simp] theorem State.setParams_setParams (y : List Int) : (s.setParams x).setParams y = s.setParams y := rfl

end

/-! ## setReports -/

section
variable (s : State) (x : List Report)

@[simp] theorem State.setReports_sfe : (s.setReports x).sfe = s.sfe := rfl
@[simp] theorem State.setReports_cm : (s.setReports x).cm = s.cm := rfl
@[simp] theorem State.setReports_rrc : (s.setReports x).rrc = s.rrc := rfl
@[simp] theorem State.setReports_aha : (s.setReports x).aha = s.aha := rfl
@[simp] theorem State.setReports_hs : (s.setReports x).hs = s.hs := rfl
@[simp] theorem State.setReports_dib : (s.setReports x).dib = s.dib := rfl
@[simp] theorem State.setReports_rws : (s.setReports x).rws = s.rws := rfl
@[simp] theorem State.setReports_bu : (s.setReports x).bu = s.bu := rfl
@[simp] theorem State.setReports_lc : (s.setReports x).lc = s.lc := rfl
@[simp] theorem State.setReports_tps : (s.setReports x).tps = s.tps := rfl
@[simp] theorem State.setReports_params : (s.setReports x).params = s.params := rfl
@[simp] theorem State.setReports_reports : (s.setReports x).reports = x := rfl
@[simp] theorem State.setReports_pending : (s.setReports x).pending = s.pending := rfl
@[simp] theorem State.setReports_setReports (y : List Report) : (s.setReports x).setReports y = s.setReports y := rfl

end

/-! ## setPending -/

section
variable (s : State) (x : List Instr)

@[simp] theorem State.setPending_sfe : (s.setPending x).sfe = s.sfe := rfl
@[simp] theorem State.setPending_cm : (s.setPending x).cm = s.cm := rfl
@[simp] theorem State.setPending_rrc : (s.setPending x).rrc = s.rrc := rfl
@[simp] theorem State.setPending_aha : (s.setPending x).aha = s.aha := rfl
@[simp] theorem State.setPending_hs : (s.setPending x).hs = s.hs := rfl
@[simp] theorem State.setPending_dib : (s.setPending x).dib = s.dib := rfl
@[simp] theorem State.setPending_rws : (s.setPending x).rws = s.rws := rfl
@[simp] theorem State.setPending_bu : (s.setPending x).bu = s.bu := rfl
@[simp] theorem State.setPending_lc : (s.setPending x).lc = s.lc := rfl
@[simp] theorem State.setPending_tps : (s.setPending x).tps = s.tps := rfl
@[simp] theorem State.setPending_params : (s.setPending x).params = s.params := rfl
@[simp] theorem State.setPending_reports : (s.setPending x).reports = s.reports := rfl
@[simp] theorem State.setPending_pending : (s.setPending x).pending = x := rfl
@[simp] theorem State.setPending_setPending (y : List Instr) : (s.setPending x).setPending y = s.setPending y := rfl

end

/-! ## raise, report, storeParam, setGroup -/

section
variable (s : State)

@[simp] theorem State.raise_sfe (d : Detail) : (s.raise d).sfe = s.sfe := rfl
@[simp] theorem State.report_sfe (r : Report) : (s.report r).sfe = s.sfe := rfl
@[simp] theorem State.storeParam_sfe (n : Nat) (v : Int) : (s.storeParam n v).sfe = s.sfe := rfl
@[simp] theorem State.raise_cm (d : Detail) : (s.raise d).cm = s.cm := rfl
@[simp] theorem State.report_cm (r : Report) : (s.report r).cm = s.cm := rfl
@[simp] theorem State.storeParam_cm (n : Nat) (v : Int) : (s.storeParam n v).cm = s.cm := rfl
@[simp] theorem State.setGroup_cm (n : GroupNo) (x : Group) : (s.setGroup n x).cm = s.cm := by
  cases n <;> rfl
@[simp] theorem State.raise_rrc (d : Detail) : (s.raise d).rrc = s.rrc := rfl
@[simp] theorem State.report_rrc (r : Report) : (s.report r).rrc = s.rrc := rfl
@[simp] theorem State.storeParam_rrc (n : Nat) (v : Int) : (s.storeParam n v).rrc = s.rrc := rfl
@[simp] theorem State.setGroup_rrc (n : GroupNo) (x : Group) : (s.setGroup n x).rrc = s.rrc := by
  cases n <;> rfl
@[simp] theorem State.raise_aha (d : Detail) : (s.raise d).aha = s.aha := rfl
@[simp] theorem State.report_aha (r : Report) : (s.report r).aha = s.aha := rfl
@[simp] theorem State.storeParam_aha (n : Nat) (v : Int) : (s.storeParam n v).aha = s.aha := rfl
@[simp] theorem State.setGroup_aha (n : GroupNo) (x : Group) : (s.setGroup n x).aha = s.aha := by
  cases n <;> rfl
@[simp] theorem State.raise_hs (d : Detail) : (s.raise d).hs = s.hs := rfl
@[simp] theorem State.report_hs (r : Report) : (s.report r).hs = s.hs := rfl
@[simp] theorem State.storeParam_hs (n : Nat) (v : Int) : (s.storeParam n v).hs = s.hs := rfl
@[simp] theorem State.setGroup_hs (n : GroupNo) (x : Group) : (s.setGroup n x).hs = s.hs := by
  cases n <;> rfl
@[simp] theorem State.raise_dib (d : Detail) : (s.raise d).dib = s.dib := rfl
@[simp] theorem State.report_dib (r : Report) : (s.report r).dib = s.dib := rfl
@[simp] theorem State.storeParam_dib (n : Nat) (v : Int) : (s.storeParam n v).dib = s.dib := rfl
@[simp] theorem State.setGroup_dib (n : GroupNo) (x : Group) : (s.setGroup n x).dib = s.dib := by
  cases n <;> rfl
@[simp] theorem State.raise_rws (d : Detail) : (s.raise d).rws = s.rws := rfl
@[simp] theorem State.report_rws (r : Report) : (s.report r).rws = s.rws := rfl
@[simp] theorem State.storeParam_rws (n : Nat) (v : Int) : (s.storeParam n v).rws = s.rws := rfl
@[simp] theorem State.setGroup_rws (n : GroupNo) (x : Group) : (s.setGroup n x).rws = s.rws := by
  cases n <;> rfl
@[simp] theorem State.raise_bu (d : Detail) : (s.raise d).bu = s.bu := rfl
@[simp] theorem State.report_bu (r : Report) : (s.report r).bu = s.bu := rfl
@[simp] theorem State.storeParam_bu (n : Nat) (v : Int) : (s.storeParam n v).bu = s.bu := rfl
@[simp] theorem State.setGroup_bu (n : GroupNo) (x : Group) : (s.setGroup n x).bu = s.bu := by
  cases n <;> rfl
@[simp] theorem State.report_lc (r : Report) : (s.report r).lc = s.lc := rfl
@[simp] theorem State.storeParam_lc (n : Nat) (v : Int) : (s.storeParam n v).lc = s.lc := rfl
@[simp] theorem State.setGroup_lc (n : GroupNo) (x : Group) : (s.setGroup n x).lc = s.lc := by
  cases n <;> rfl
@[simp] theorem State.raise_tps (d : Detail) : (s.raise d).tps = s.tps := rfl
@[simp] theorem State.report_tps (r : Report) : (s.report r).tps = s.tps := rfl
@[simp] theorem State.storeParam_tps (n : Nat) (v : Int) : (s.storeParam n v).tps = s.tps := rfl
@[simp] theorem State.setGroup_tps (n : GroupNo) (x : Group) : (s.setGroup n x).tps = s.tps := by
  cases n <;> rfl
@[simp] theorem State.raise_params (d : Detail) : (s.raise d).params = s.params := rfl
@[simp] theorem State.report_params (r : Report) : (s.report r).params = s.params := rfl
@[simp] theorem State.setGroup_params (n : GroupNo) (x : Group) : (s.setGroup n x).params = s.params := by
  cases n <;> rfl
@[simp] theorem State.raise_reports (d : Detail) : (s.raise d).reports = s.reports := rfl
@[simp] theorem State.storeParam_reports (n : Nat) (v : Int) : (s.storeParam n v).reports = s.reports := rfl
@[simp] theorem State.setGroup_reports (n : GroupNo) (x : Group) : (s.setGroup n x).reports = s.reports := by
  cases n <;> rfl
@[simp] theorem State.raise_pending (d : Detail) : (s.raise d).pending = s.pending := rfl
@[simp] theorem State.report_pending (r : Report) : (s.report r).pending = s.pending := rfl
@[simp] theorem State.storeParam_pending (n : Nat) (v : Int) : (s.storeParam n v).pending = s.pending := rfl
@[simp] theorem State.setGroup_pending (n : GroupNo) (x : Group) : (s.setGroup n x).pending = s.pending := by
  cases n <;> rfl

@[simp] theorem State.report_reports (r : Report) : (s.report r).reports = s.reports ++ [r] := rfl
@[simp] theorem State.raise_lc_locked (d : Detail) : (s.raise d).lc.locked = s.lc.locked := rfl
@[simp] theorem State.raise_lc_tx (d : Detail) : (s.raise d).lc.tx = s.lc.tx := rfl
@[simp] theorem State.raise_lc_built (d : Detail) : (s.raise d).lc.built = s.lc.built := rfl
@[simp] theorem State.raise_lc_holdTake (d : Detail) : (s.raise d).lc.holdTake = s.lc.holdTake := rfl
@[simp] theorem State.raise_lc_clearing (d : Detail) : (s.raise d).lc.clearing = s.lc.clearing := rfl
@[simp] theorem State.raise_lc_rx (d : Detail) : (s.raise d).lc.rx = s.lc.rx := rfl
@[simp] theorem State.raise_lc_mask (d : Detail) : (s.raise d).lc.mask = s.lc.mask := rfl
@[simp] theorem State.raise_lc_silence (d : Detail) : (s.raise d).lc.silence = s.lc.silence := rfl
@[simp] theorem State.raise_lc_collect (d : Detail) : (s.raise d).lc.collect = s.lc.collect := rfl
@[simp] theorem State.raise_lc_byteTimer (d : Detail) : (s.raise d).lc.byteTimer = s.lc.byteTimer := rfl
@[simp] theorem State.raise_lc_trial (d : Detail) : (s.raise d).lc.trial = s.lc.trial := rfl
@[simp] theorem State.raise_lc_lastRate (d : Detail) : (s.raise d).lc.lastRate = s.lc.lastRate := rfl

end

/-! ## elapse -/

section
variable (dt : Nat) (s : State)

@[simp] theorem State.elapse_rrc : (s.elapse dt).rrc = s.rrc := by
  unfold State.elapse; split <;> rfl
@[simp] theorem State.elapse_dib : (s.elapse dt).dib = s.dib := by
  unfold State.elapse; split <;> rfl
@[simp] theorem State.elapse_bu : (s.elapse dt).bu = s.bu := by
  unfold State.elapse; split <;> rfl
@[simp] theorem State.elapse_tps : (s.elapse dt).tps = s.tps := by
  unfold State.elapse; split <;> rfl
@[simp] theorem State.elapse_params : (s.elapse dt).params = s.params := by
  unfold State.elapse; split <;> rfl
@[simp] theorem State.elapse_reports : (s.elapse dt).reports = s.reports := by
  unfold State.elapse; split <;> rfl
@[simp] theorem State.elapse_pending : (s.elapse dt).pending = s.pending := by
  unfold State.elapse; split <;> rfl
@[simp] theorem State.elapse_lc_locked : (s.elapse dt).lc.locked = s.lc.locked := by
  unfold State.elapse; split <;> rfl
@[simp] theorem State.elapse_lc_tx : (s.elapse dt).lc.tx = s.lc.tx := by
  unfold State.elapse; split <;> rfl
@[simp] theorem State.elapse_lc_built : (s.elapse dt).lc.built = s.lc.built := by
  unfold State.elapse; split <;> rfl
@[simp] theorem State.elapse_lc_holdTake : (s.elapse dt).lc.holdTake = s.lc.holdTake := by
  unfold State.elapse; split <;> rfl
@[simp] theorem State.elapse_lc_clearing : (s.elapse dt).lc.clearing = s.lc.clearing := by
  unfold State.elapse; split <;> rfl
@[simp] theorem State.elapse_lc_rx : (s.elapse dt).lc.rx = s.lc.rx := by
  unfold State.elapse; split <;> rfl
@[simp] theorem State.elapse_lc_mask : (s.elapse dt).lc.mask = s.lc.mask := by
  unfold State.elapse; split <;> rfl
@[simp] theorem State.elapse_lc_notices : (s.elapse dt).lc.notices = s.lc.notices := by
  unfold State.elapse; split <;> rfl
@[simp] theorem State.elapse_lc_collect : (s.elapse dt).lc.collect = s.lc.collect := by
  unfold State.elapse; split <;> rfl
@[simp] theorem State.elapse_lc_trial : (s.elapse dt).lc.trial = s.lc.trial := by
  unfold State.elapse; split <;> rfl
@[simp] theorem State.elapse_lc_lastRate : (s.elapse dt).lc.lastRate = s.lc.lastRate := by
  unfold State.elapse; split <;> rfl
@[simp] theorem State.elapse_rws_store : (s.elapse dt).rws.store = s.rws.store := by
  unfold State.elapse; split <;> rfl
@[simp] theorem State.elapse_rws_halfErased : (s.elapse dt).rws.halfErased = s.rws.halfErased := by
  unfold State.elapse; split <;> rfl
@[simp] theorem State.elapse_rws_queue : (s.elapse dt).rws.queue = s.rws.queue := by
  unfold State.elapse; split <;> rfl
@[simp] theorem State.elapse_rws_slot : (s.elapse dt).rws.slot = s.rws.slot := by
  unfold State.elapse; split <;> rfl
@[simp] theorem State.elapse_rws_write : (s.elapse dt).rws.write = s.rws.write := by
  unfold State.elapse; split <;> rfl
@[simp] theorem State.elapse_rws_wst : (s.elapse dt).rws.wst = s.rws.wst := by
  unfold State.elapse; split <;> rfl
@[simp] theorem State.elapse_rws_sectors : (s.elapse dt).rws.sectors = s.rws.sectors := by
  unfold State.elapse; split <;> rfl
@[simp] theorem State.elapse_rws_head : (s.elapse dt).rws.head = s.rws.head := by
  unfold State.elapse; split <;> rfl
@[simp] theorem State.elapse_rws_nextSeq : (s.elapse dt).rws.nextSeq = s.rws.nextSeq := by
  unfold State.elapse; split <;> rfl
@[simp] theorem State.elapse_rws_earliest : (s.elapse dt).rws.earliest = s.rws.earliest := by
  unfold State.elapse; split <;> rfl
@[simp] theorem State.elapse_rws_readable : (s.elapse dt).rws.readable = s.rws.readable := by
  unfold State.elapse; split <;> rfl
@[simp] theorem State.elapse_rws_accepting : (s.elapse dt).rws.accepting = s.rws.accepting := by
  unfold State.elapse; split <;> rfl
@[simp] theorem State.elapse_rws_scanning : (s.elapse dt).rws.scanning = s.rws.scanning := by
  unfold State.elapse; split <;> rfl
@[simp] theorem State.elapse_rws_recovering : (s.elapse dt).rws.recovering = s.rws.recovering := by
  unfold State.elapse; split <;> rfl
@[simp] theorem State.elapse_rws_exhausted : (s.elapse dt).rws.exhausted = s.rws.exhausted := by
  unfold State.elapse; split <;> rfl
@[simp] theorem State.elapse_hs_seq : (s.elapse dt).hs.seq = s.hs.seq := by
  unfold State.elapse; split <;> rfl
@[simp] theorem State.elapse_hs_op : (s.elapse dt).hs.op = s.hs.op := by
  unfold State.elapse; split <;> rfl
@[simp] theorem State.elapse_hs_cause : (s.elapse dt).hs.cause = s.hs.cause := by
  unfold State.elapse; split <;> rfl
@[simp] theorem State.elapse_hs_trip : (s.elapse dt).hs.trip = s.hs.trip := by
  unfold State.elapse; split <;> rfl
@[simp] theorem State.elapse_hs_depthHold : (s.elapse dt).hs.depthHold = s.hs.depthHold := by
  unfold State.elapse; split <;> rfl
@[simp] theorem State.elapse_aha_stack : (s.elapse dt).aha.stack = s.aha.stack := by
  unfold State.elapse; split <;> rfl
@[simp] theorem State.elapse_aha_waiting : (s.elapse dt).aha.waiting = s.aha.waiting := by
  unfold State.elapse; split <;> rfl
@[simp] theorem State.elapse_aha_valve : (s.elapse dt).aha.valve = s.aha.valve := by
  unfold State.elapse; split <;> rfl
@[simp] theorem State.elapse_cm_mon : (s.elapse dt).cm.mon = s.cm.mon := by
  unfold State.elapse; split <;> rfl
@[simp] theorem State.elapse_cm_cond : (s.elapse dt).cm.cond = s.cm.cond := by
  unfold State.elapse; split <;> rfl
@[simp] theorem State.elapse_cm_win : (s.elapse dt).cm.win = s.cm.win := by
  unfold State.elapse; split <;> rfl
@[simp] theorem State.elapse_cm_ring : (s.elapse dt).cm.ring = s.cm.ring := by
  unfold State.elapse; split <;> rfl
@[simp] theorem State.elapse_cm_sum : (s.elapse dt).cm.sum = s.cm.sum := by
  unfold State.elapse; split <;> rfl
@[simp] theorem State.elapse_cm_lossLatch : (s.elapse dt).cm.lossLatch = s.cm.lossLatch := by
  unfold State.elapse; split <;> rfl
@[simp] theorem State.elapse_cm_gainLatch : (s.elapse dt).cm.gainLatch = s.cm.gainLatch := by
  unfold State.elapse; split <;> rfl
@[simp] theorem State.elapse_cm_divert : (s.elapse dt).cm.divert = s.cm.divert := by
  unfold State.elapse; split <;> rfl
@[simp] theorem State.elapse_cm_cum : (s.elapse dt).cm.cum = s.cm.cum := by
  unfold State.elapse; split <;> rfl
@[simp] theorem State.elapse_cm_fcResult : (s.elapse dt).cm.fcResult = s.cm.fcResult := by
  unfold State.elapse; split <;> rfl
@[simp] theorem State.elapse_cm_fcVol : (s.elapse dt).cm.fcVol = s.cm.fcVol := by
  unfold State.elapse; split <;> rfl
@[simp] theorem State.elapse_cm_ref : (s.elapse dt).cm.ref = s.cm.ref := by
  unfold State.elapse; split <;> rfl
@[simp] theorem State.elapse_cm_span : (s.elapse dt).cm.span = s.cm.span := by
  unfold State.elapse; split <;> rfl
@[simp] theorem State.elapse_cm_secPulses : (s.elapse dt).cm.secPulses = s.cm.secPulses := by
  unfold State.elapse; split <;> rfl
@[simp] theorem State.elapse_cm_settle : (s.elapse dt).cm.settle = s.cm.settle := by
  unfold State.elapse; split <;> rfl
@[simp] theorem State.elapse_sfe_raw : (s.elapse dt).sfe.raw = s.sfe.raw := by
  unfold State.elapse Sfe.elapse; split
  · rfl
  · dsimp only; split <;> rfl
@[simp] theorem State.elapse_sfe_head : (s.elapse dt).sfe.head = s.sfe.head := by
  unfold State.elapse Sfe.elapse; split
  · rfl
  · dsimp only; split <;> rfl
@[simp] theorem State.elapse_sfe_enc : (s.elapse dt).sfe.enc = s.sfe.enc := by
  unfold State.elapse Sfe.elapse; split
  · rfl
  · dsimp only; split <;> rfl
@[simp] theorem State.elapse_sfe_pit : (s.elapse dt).sfe.pit = s.sfe.pit := by
  unfold State.elapse Sfe.elapse; split
  · rfl
  · dsimp only; split <;> rfl
@[simp] theorem State.elapse_sfe_press : (s.elapse dt).sfe.press = s.sfe.press := by
  unfold State.elapse Sfe.elapse; split
  · rfl
  · dsimp only; split <;> rfl
@[simp] theorem State.elapse_sfe_torque : (s.elapse dt).sfe.torque = s.sfe.torque := by
  unfold State.elapse Sfe.elapse; split
  · rfl
  · dsimp only; split <;> rfl
@[simp] theorem State.elapse_sfe_acquisitionEnded : (s.elapse dt).sfe.acquisitionEnded = s.sfe.acquisitionEnded := by
  unfold State.elapse Sfe.elapse; split
  · rfl
  · dsimp only; split <;> rfl
@[simp] theorem State.elapse_sfe_rotCount : (s.elapse dt).sfe.rotCount = s.sfe.rotCount := by
  unfold State.elapse Sfe.elapse; split
  · rfl
  · dsimp only; split <;> rfl
@[simp] theorem State.elapse_sfe_retCount : (s.elapse dt).sfe.retCount = s.sfe.retCount := by
  unfold State.elapse Sfe.elapse; split
  · rfl
  · dsimp only; split <;> rfl
@[simp] theorem State.elapse_sfe_stroke1 : (s.elapse dt).sfe.stroke1 = s.sfe.stroke1 := by
  unfold State.elapse Sfe.elapse; split
  · rfl
  · dsimp only; split <;> rfl
@[simp] theorem State.elapse_sfe_stroke2 : (s.elapse dt).sfe.stroke2 = s.sfe.stroke2 := by
  unfold State.elapse Sfe.elapse; split
  · rfl
  · dsimp only; split <;> rfl
@[simp] theorem State.elapse_sfe_g0 : (s.elapse dt).sfe.g0 = s.sfe.g0 := by
  unfold State.elapse Sfe.elapse; split
  · rfl
  · dsimp only; split <;> rfl
@[simp] theorem State.elapse_sfe_g1 : (s.elapse dt).sfe.g1 = s.sfe.g1 := by
  unfold State.elapse Sfe.elapse; split
  · rfl
  · dsimp only; split <;> rfl
@[simp] theorem State.elapse_sfe_g2 : (s.elapse dt).sfe.g2 = s.sfe.g2 := by
  unfold State.elapse Sfe.elapse; split
  · rfl
  · dsimp only; split <;> rfl
@[simp] theorem State.elapse_sfe_g3 : (s.elapse dt).sfe.g3 = s.sfe.g3 := by
  unfold State.elapse Sfe.elapse; split
  · rfl
  · dsimp only; split <;> rfl

end

end Sys2Proof.Machine
end

