-- ==== Sys2Proof/Laws/Hydraulics.lean ====
section
/-! SUPPORT. The arbiter keeps its order under every operation of chapter 4: the holder ranks above every
other request, no client has two, and the driven valve is the holder's (R63, R65, R66, R68). -/

namespace Sys2Proof.Machine

/-! ## Lists of requests -/

/-- A request ranks above every one of a list. -/
def Below (r : Req) (l : List Req) : Prop := ∀ q ∈ l, r.client.rank < q.client.rank

/-- No two requests of the two lists are of one client. -/
def Apart (l m : List Req) : Prop := ∀ r ∈ l, ∀ q ∈ m, r.client ≠ q.client

theorem chainOrdered_cons {r : Req} {l : List Req} :
    chainOrdered (r :: l) = true ↔ Below r l ∧ chainOrdered l = true := by
  simp [chainOrdered, Below]

theorem clientsApart_iff {l m : List Req} : clientsApart l m = true ↔ Apart l m := by
  simp [clientsApart, Apart]

theorem Client.rank_inj {a b : Client} (h : a.rank = b.rank) : a = b := by
  cases a <;> cases b <;> first | rfl | (simp [Client.rank] at h)

theorem chainOrdered_filter {p : Req → Bool} {l : List Req} (h : chainOrdered l = true) :
    chainOrdered (l.filter p) = true := by
  induction l with
  | nil => exact h
  | cons r l ih =>
    obtain ⟨h1, h2⟩ := chainOrdered_cons.1 h
    by_cases hp : p r = true
    · rw [List.filter_cons_of_pos hp]
      exact chainOrdered_cons.2 ⟨fun q hq => h1 q (List.mem_filter.1 hq).1, ih h2⟩
    · rw [List.filter_cons_of_neg hp]
      exact ih h2

theorem chainOrdered_map {f : Req → Req} (hf : ∀ r, (f r).client = r.client) {l : List Req}
    (h : chainOrdered l = true) : chainOrdered (l.map f) = true := by
  induction l with
  | nil => exact h
  | cons r l ih =>
    obtain ⟨h1, h2⟩ := chainOrdered_cons.1 h
    refine chainOrdered_cons.2 ⟨fun q hq => ?_, ih h2⟩
    obtain ⟨x, hx, rfl⟩ := List.mem_map.1 hq
    rw [hf, hf]; exact h1 x hx

theorem mem_insertWaiting {r q : Req} {l : List Req} (h : q ∈ insertWaiting r l) : q = r ∨ q ∈ l := by
  induction l with
  | nil => simp only [insertWaiting, List.mem_singleton] at h; exact .inl h
  | cons w l ih =>
    simp only [insertWaiting] at h
    split at h
    · simpa using h
    · rcases List.mem_cons.1 h with h | h
      · exact .inr (by simp [h])
      · rcases ih h with h | h
        · exact .inl h
        · exact .inr (List.mem_cons_of_mem _ h)

theorem chainOrdered_insertWaiting {r : Req} {l : List Req} (hr : ∀ q ∈ l, r.client ≠ q.client)
    (h : chainOrdered l = true) : chainOrdered (insertWaiting r l) = true := by
  induction l with
  | nil => simp [insertWaiting, chainOrdered]
  | cons w l ih =>
    obtain ⟨h1, h2⟩ := chainOrdered_cons.1 h
    simp only [insertWaiting]
    split
    · rename_i hlt
      refine chainOrdered_cons.2 ⟨fun q hq => ?_, h⟩
      rcases List.mem_cons.1 hq with rfl | hq
      · exact hlt
      · exact Nat.lt_trans hlt (h1 q hq)
    · rename_i hge
      have hne := hr w (List.mem_cons_self ..)
      have hlt : w.client.rank < r.client.rank :=
        lt_of_le_of_ne (not_lt.1 hge) fun e => hne (Client.rank_inj e.symm)
      refine chainOrdered_cons.2
        ⟨fun q hq => ?_, ih (fun q hq => hr q (List.mem_cons_of_mem _ hq)) h2⟩
      rcases mem_insertWaiting hq with rfl | hq
      · exact hlt
      · exact h1 q hq

/-- Requests of which no two are of one client are at most four (chapter 4). -/
theorem length_le_four {l m : List Req} (hl : chainOrdered l = true) (hm : chainOrdered m = true)
    (h : Apart l m) : l.length + m.length ≤ 4 := by
  have nodup : ∀ {l : List Req}, chainOrdered l = true → (l.map (·.client.rank)).Nodup := by
    intro l hl
    induction l with
    | nil => simp
    | cons r l ih =>
      obtain ⟨h1, h2⟩ := chainOrdered_cons.1 hl
      refine List.nodup_cons.2 ⟨fun hmem => ?_, ih h2⟩
      obtain ⟨q, hq, e⟩ := List.mem_map.1 hmem
      exact absurd (h1 q hq) (by simp only [e]; omega)
  have hnd : ((l ++ m).map (·.client.rank)).Nodup := by
    rw [List.map_append]
    refine List.Nodup.append (nodup hl) (nodup hm) ?_
    intro x hx hy
    obtain ⟨a, ha, rfl⟩ := List.mem_map.1 hx
    obtain ⟨b, hb, e⟩ := List.mem_map.1 hy
    exact h a ha b hb (Client.rank_inj e.symm)
  have hsub : (l ++ m).map (·.client.rank) ⊆ [1, 2, 3, 4] := by
    intro x hx
    obtain ⟨a, -, rfl⟩ := List.mem_map.1 hx
    cases a.client <;> simp [Client.rank]
  have := (hnd.subperm hsub).length_le
  simpa using this

/-! ## The order with no holder -/

/-- The arbiter's order while the grant passes on: no client holds it. -/
structure Aha.Open (a : Aha) : Prop where
  holder : a.holder = none
  valve : a.valve = none
  stack : chainOrdered a.stack = true
  waiting : chainOrdered a.waiting = true
  apart : Apart a.stack a.waiting

/-- What the arbiter's order says with a holder. -/
theorem Aha.ok_some {a : Aha} {r : Req} (hr : a.holder = some r) :
    a.ok = true ↔ Below r a.stack ∧ Below r a.waiting ∧ chainOrdered a.stack = true
      ∧ chainOrdered a.waiting = true ∧ Apart a.stack a.waiting
      ∧ (∀ v, a.valve = some v → v = (r.fn, r.dir) ∧ (r.fn = .index → r.lockWait = none)) := by
  unfold Aha.ok Aha.drivesHolder
  rw [hr]
  simp only [Option.toList, List.singleton_append, Bool.and_eq_true, chainOrdered_cons,
    clientsApart_iff, Option.isSome_some, Bool.true_or, and_true]
  cases a.valve <;> simp <;> grind

/-- The order, for a holder of a client that ranks above all that stand. -/
theorem Aha.ok_intro {a : Aha} {q r : Req} (hq : a.holder = some q) (hc : q.client = r.client)
    (h1 : Below r a.stack) (h2 : Below r a.waiting) (h3 : chainOrdered a.stack = true)
    (h4 : chainOrdered a.waiting = true) (h5 : Apart a.stack a.waiting)
    (h6 : ∀ v, a.valve = some v → v = (q.fn, q.dir) ∧ (q.fn = .index → q.lockWait = none)) :
    a.ok = true :=
  (Aha.ok_some hq).2 ⟨fun x hx => hc ▸ h1 x hx, fun x hx => hc ▸ h2 x hx, h3, h4, h5, h6⟩

/-- What it says with none. -/
theorem Aha.ok_none {a : Aha} (hr : a.holder = none) :
    a.ok = true ↔ a.stack = [] ∧ a.waiting = [] ∧ a.valve = none := by
  unfold Aha.ok Aha.drivesHolder
  rw [hr]
  cases a.valve <;> simp [clientsApart]
  grind [chainOrdered]

/-- The holder stops: the order is open. -/
theorem Aha.Open.of_ok {a : Aha} (h : a.ok = true) :
    Aha.Open { a with holder := none, valve := none } := by
  cases hr : a.holder with
  | none =>
    obtain ⟨h1, h2, -⟩ := (Aha.ok_none hr).1 h
    exact ⟨rfl, rfl, by simp [h1, chainOrdered], by simp [h2, chainOrdered], by simp [Apart, h1]⟩
  | some r =>
    obtain ⟨-, -, h1, h2, h3, -⟩ := (Aha.ok_some hr).1 h
    exact ⟨rfl, rfl, h1, h2, h3⟩

theorem Aha.Open.ok_of_nil {a : Aha} (h : a.Open) (h1 : a.stack = []) (h2 : a.waiting = []) :
    a.ok = true := (Aha.ok_none h.holder).2 ⟨h1, h2, h.valve⟩

/-- A client is granted that ranks above all that stand. -/
theorem Aha.Open.grant {a : Aha} {r : Req} {v : Option (Func × Dir)} (h : a.Open)
    (h1 : Below r a.stack) (h2 : Below r a.waiting)
    (hv : ∀ x, v = some x → x = (r.fn, r.dir) ∧ (r.fn = .index → r.lockWait = none)) :
    Aha.ok { a with holder := some r, valve := v } = true :=
  (Aha.ok_some rfl).2 ⟨h1, h2, h.stack, h.waiting, h.apart, hv⟩

/-- The candidate that the grant passes to ranks above all that then stand (R68). -/
theorem Aha.Open.nextCandidate {a b : Aha} {r : Req} (h : a.Open)
    (e : a.nextCandidate = some (r, b)) :
    b.Open ∧ Below r b.stack ∧ Below r b.waiting
      ∧ b.stack.length + b.waiting.length + 1 = a.stack.length + a.waiting.length := by
  obtain ⟨hh, hv, hs, hw, ha⟩ := h
  have lt_of {x y : Req} (hx : x ∈ a.stack) (hy : y ∈ a.waiting)
      (hn : ¬x.client.rank < y.client.rank) : y.client.rank < x.client.rank :=
    lt_of_le_of_ne (not_lt.1 hn) fun e => ha x hx y hy (Client.rank_inj e.symm)
  unfold Aha.nextCandidate at e
  split at e
  · cases e
  · rename_i t ts h1 h2
    cases e
    rw [h1] at hs
    obtain ⟨b1, b2⟩ := chainOrdered_cons.1 hs
    exact ⟨⟨hh, hv, b2, hw, fun x hx => ha x (by simp [h1, hx])⟩, b1, by simp [Below, h2], by
      simp [h1]; omega⟩
  · rename_i w ws h1 h2
    cases e
    rw [h2] at hw
    obtain ⟨b1, b2⟩ := chainOrdered_cons.1 hw
    exact ⟨⟨hh, hv, hs, b2, by simp [Apart, h1]⟩, by simp [Below, h1], b1, by
      simp [h2]; omega⟩
  · rename_i t ts w ws h1 h2
    have hs' := hs
    have hw' := hw
    rw [h1] at hs'
    rw [h2] at hw'
    obtain ⟨b1, b2⟩ := chainOrdered_cons.1 hs'
    obtain ⟨c1, c2⟩ := chainOrdered_cons.1 hw'
    split at e
    · rename_i hlt
      cases e
      refine ⟨⟨hh, hv, b2, hw, fun x hx => ha x (by simp [h1, hx])⟩, b1, fun q hq => ?_, by
        simp [h1]; omega⟩
      rw [h2] at hq
      rcases List.mem_cons.1 hq with rfl | hq
      · exact hlt
      · exact Nat.lt_trans hlt (c1 q hq)
    · rename_i hn
      cases e
      have hlt := lt_of (by simp [h1]) (by simp [h2]) hn
      refine ⟨⟨hh, hv, hs, c2, fun x hx y hy => ha x hx y (by simp [h2, hy])⟩, fun q hq => ?_, c1, by
        simp [h2]; omega⟩
      rw [h1] at hq
      rcases List.mem_cons.1 hq with rfl | hq
      · exact hlt
      · exact Nat.lt_trans hlt (b1 q hq)

/-! ## The operations -/

section
variable {s : State} {r : Req}

@[simp] theorem writeGroup_aha (n : GroupNo) (x y : SwitchSet) : (writeGroup n x y s).1.aha = s.aha := by
  simp [writeGroup]
@[simp] theorem disarmGroup_aha (n : GroupNo) : (disarmGroup n s).aha = s.aha := writeGroup_aha ..
@[simp] theorem armGuard_aha : (armGuard s).1.aha = s.aha := writeGroup_aha ..
@[simp] theorem report_aha (x : Report) : (s.report x).aha = s.aha := rfl
@[simp] theorem guardFailed_aha : (guardFailed r s).aha = s.aha := by simp [guardFailed]

/-- The index valve is driven for a request that ranks above all that stand. -/
theorem driveIndex_ok (hf : r.fn = .index) (h1 : Below r s.aha.stack) (h2 : Below r s.aha.waiting)
    (h3 : chainOrdered s.aha.stack = true) (h4 : chainOrdered s.aha.waiting = true)
    (h5 : Apart s.aha.stack s.aha.waiting) : (driveIndex r s).aha.ok = true :=
  Aha.ok_intro (r := r) rfl rfl h1 h2 h3 h4 h5 (by simp [driveIndex, hf])

/-- A grant either makes the client the holder, in order, or leaves the arbiter as it is. -/
theorem tryGrant_aha (h : s.aha.Open) (h1 : Below r s.aha.stack) (h2 : Below r s.aha.waiting)
    {t : State} {b : Bool} (e : tryGrant r s = (t, b)) :
    if b then t.aha.ok = true else t.aha = s.aha := by
  unfold tryGrant at e
  split at e
  · cases e; rfl
  · split at e
    · rename_i hf
      rcases hg : armGuard s with ⟨u, m⟩
      have hu : u.aha = s.aha := by simpa [hg] using armGuard_aha (s := s)
      rw [hg] at e
      simp only [] at e
      have ho : u.aha.Open := hu ▸ h
      rw [← hu] at h1 h2
      split at e
      · cases e; simp [hu]
      · split at e
        · cases e
          exact driveIndex_ok hf h1 h2 ho.stack ho.waiting ho.apart
        · cases e
          exact Aha.ok_intro (r := r) rfl rfl h1 h2 ho.stack ho.waiting ho.apart (by simp [awaitLock, ho.valve])
    · rename_i hf
      cases e
      exact Aha.ok_intro (r := r) rfl rfl h1 h2 h.stack h.waiting h.apart (by simp [driveValve, hf])

/-- The grant passes on until the order has a holder again, or nothing stands (R68). -/
theorem passOn_aha (n : Nat) {s : State} (h : s.aha.Open)
    (hn : s.aha.stack.length + s.aha.waiting.length ≤ n) : (passOn n s).aha.ok = true := by
  induction n generalizing s with
  | zero =>
    exact h.ok_of_nil (List.length_eq_zero_iff.1 (by omega)) (List.length_eq_zero_iff.1 (by omega))
  | succ n ih =>
    unfold passOn
    split
    · rename_i e
      unfold Aha.nextCandidate at e
      split at e
      · exact h.ok_of_nil ‹_› ‹_›
      all_goals first | cases e | (split at e <;> cases e)
    · rename_i r a e
      obtain ⟨h1, h2, h3, h4⟩ := h.nextCandidate e
      rcases hg : tryGrant r (s.setAha a) with ⟨u, b⟩
      have := tryGrant_aha (s := s.setAha a) h1 h2 h3 hg
      simp only []
      cases b
      · simp only [Bool.false_eq_true, if_false, State.setAha_aha] at this
        simp only [Bool.false_eq_true, if_false]
        exact ih (this ▸ h1) (by rw [this]; omega)
      · simpa using this

theorem stopHolder_aha : (stopHolder s).aha =
    if s.aha.holder.isSome then { s.aha with holder := none, valve := none } else s.aha := by
  unfold stopHolder
  split
  · rename_i h; simp [h]
  · rename_i r h
    simp only [h, Option.isSome_some, if_true, State.setAha_aha]
    split <;> simp

@[simp] theorem suspended_client (b : Bool) : (r.suspended b).client = r.client := rfl

/-- The holder's place is empty and its valve centred, and it stands at the top of the stack (R65). -/
theorem suspendHolder_aha {q : Req} (h : s.aha.holder = some q) : (suspendHolder q s).aha =
    { s.aha with
      holder := none, valve := none, stack := q.suspended s.rrc.stepMark :: s.aha.stack } := by
  simp [suspendHolder, stopHolder_aha, h]

/-- The holder stops running: the order is open (R67). -/
theorem stopHolder_open (h : s.aha.ok = true) : (stopHolder s).aha.Open := by
  rw [stopHolder_aha]
  split
  · exact .of_ok h
  · rename_i hn
    obtain ⟨h1, h2, h3⟩ := (Aha.ok_none (Option.not_isSome_iff_eq_none.1 hn)).1 h
    exact ⟨Option.not_isSome_iff_eq_none.1 hn, h3, by simp [h1, chainOrdered], by
      simp [h2, chainOrdered], by simp [Apart, h1]⟩

/-- From the open order the grant passes on to a holder or to none (R68). -/
theorem passOn_open (h : s.aha.Open) : (passOn clientCount s).aha.ok = true :=
  passOn_aha _ h (length_le_four h.stack h.waiting h.apart)

theorem endHolder_aha (x : Report) (h : s.ahaOk) : (endHolder x s).ahaOk :=
  passOn_open (s := (stopHolder s).report x) (stopHolder_open h)

theorem grantNow_aha (h : s.aha.Open) (h1 : Below r s.aha.stack) (h2 : Below r s.aha.waiting) :
    (grantNow r s).ahaOk := by
  unfold grantNow
  rcases hg : tryGrant r s with ⟨u, b⟩
  have := tryGrant_aha h h1 h2 hg
  simp only []
  cases b
  · simp only [Bool.false_eq_true, if_false] at this ⊢
    exact passOn_open (this ▸ h)
  · simpa [State.ahaOk] using this

/-- A client that no request stands for is apart from all that stand. -/
theorem Aha.not_stands {a : Aha} {c : Client} (h : a.stands c = false) :
    ∀ q ∈ a.standing, q.client ≠ c := by
  simpa [Aha.stands] using h

theorem requestMotion_aha (h : s.ahaOk) : (requestMotion r s).ahaOk := by
  unfold requestMotion
  split
  · exact h
  · rename_i hs
    have hs := Aha.not_stands (Bool.not_eq_true _ ▸ hs)
    split
    · exact h
    · split
      · rename_i hh
        obtain ⟨h1, h2, h3⟩ := (Aha.ok_none hh).1 h
        exact grantNow_aha ⟨hh, h3, by simp [h1, chainOrdered], by simp [h2, chainOrdered], by
          simp [Apart, h1]⟩ (by simp [Below, h1]) (by simp [Below, h2])
      · rename_i q hh
        obtain ⟨h1, h2, h3, h4, h5, h6⟩ := (Aha.ok_some hh).1 h
        have hw : ∀ x ∈ s.aha.waiting, r.client ≠ x.client := fun x hx =>
          (hs x (by simp [Aha.standing, hx])).symm
        split
        · rename_i hlt
          have ha := suspendHolder_aha hh
          refine grantNow_aha (s := suspendHolder q s) ?_ ?_ ?_
          · refine ⟨?_, ?_, ?_, ?_, ?_⟩
            · simp [ha]
            · simp [ha]
            · simp only [ha]; exact chainOrdered_cons.2 ⟨h1, h3⟩
            · simp only [ha]; exact h4
            · simp only [ha]
              intro x hx y hy
              rcases List.mem_cons.1 hx with rfl | hx
              · intro e; have := h2 y hy; rw [suspended_client] at e; rw [e] at this; omega
              · exact h5 x hx y hy
          · simp only [ha]
            intro x hx
            rcases List.mem_cons.1 hx with rfl | hx
            · exact hlt
            · exact Nat.lt_trans hlt (h1 x hx)
          · simp only [ha]
            exact fun x hx => Nat.lt_trans hlt (h2 x hx)
        · rename_i hge
          have hne : r.client ≠ q.client := (hs q (by simp [Aha.standing, hh])).symm
          have hlt : q.client.rank < r.client.rank :=
            lt_of_le_of_ne (not_lt.1 hge) fun e => hne (Client.rank_inj e.symm)
          refine (Aha.ok_some (a := { s.aha with waiting := insertWaiting r s.aha.waiting }) hh).2
            ⟨h1, fun x hx => ?_, h3, chainOrdered_insertWaiting hw h4, fun x hx y hy => ?_, h6⟩
          · rcases mem_insertWaiting hx with rfl | hx
            · exact hlt
            · exact h2 x hx
          · rcases mem_insertWaiting hy with rfl | hy
            · exact hs x (by simp [Aha.standing, hx])
            · exact h5 x hx y hy

theorem withdraw_aha (c : Client) (h : s.ahaOk) : (withdraw c s).ahaOk := by
  unfold withdraw
  split
  · exact passOn_open (stopHolder_open h)
  · unfold State.ahaOk
    cases hh : s.aha.holder with
    | none =>
      obtain ⟨h1, h2, h3⟩ := (Aha.ok_none hh).1 h
      exact (Aha.ok_none (by simp [hh])).2 (by simp [h1, h2, h3])
    | some q =>
      obtain ⟨h1, h2, h3, h4, h5, h6⟩ := (Aha.ok_some hh).1 h
      refine (Aha.ok_some (r := q) (by simp [hh])).2 ⟨?_, ?_, ?_, ?_, ?_, by simpa using h6⟩
      · exact fun x hx => h1 x (List.mem_filter.1 hx).1
      · exact fun x hx => h2 x (List.mem_filter.1 hx).1
      · exact chainOrdered_filter h3
      · exact chainOrdered_filter h4
      · exact fun x hx y hy => h5 x (List.mem_filter.1 hx).1 y (List.mem_filter.1 hy).1

/-- A change of request records that keeps client, function, direction and wait keeps the order. -/
theorem Aha.ok_map {a : Aha} {f : Req → Req} (hc : ∀ r, (f r).client = r.client)
    (hf : ∀ r, (f r).fn = r.fn) (hd : ∀ r, (f r).dir = r.dir) (hl : ∀ r, (f r).lockWait = r.lockWait)
    (h : a.ok = true) :
    Aha.ok { a with holder := a.holder.map f, stack := a.stack.map f, waiting := a.waiting.map f } =
      true := by
  have below : ∀ {r : Req} {l : List Req}, Below r l → Below (f r) (l.map f) := by
    intro r l hb x hx
    obtain ⟨y, hy, rfl⟩ := List.mem_map.1 hx
    rw [hc, hc]; exact hb y hy
  cases hh : a.holder with
  | none =>
    obtain ⟨h1, h2, h3⟩ := (Aha.ok_none hh).1 h
    exact (Aha.ok_none (by simp)).2 (by simp [h1, h2, h3])
  | some q =>
    obtain ⟨h1, h2, h3, h4, h5, h6⟩ := (Aha.ok_some hh).1 h
    refine (Aha.ok_some (r := f q) (by simp)).2
      ⟨below h1, below h2, chainOrdered_map hc h3, chainOrdered_map hc h4, ?_, ?_⟩
    · intro x hx y hy
      obtain ⟨x', hx', rfl⟩ := List.mem_map.1 hx
      obtain ⟨y', hy', rfl⟩ := List.mem_map.1 hy
      rw [hc, hc]; exact h5 x' hx' y' hy'
    · simpa [hf, hd, hl] using h6

theorem modReq_ok {a : Aha} (c : Client) {f : Req → Req} (hc : ∀ r, (f r).client = r.client)
    (hf : ∀ r, (f r).fn = r.fn) (hd : ∀ r, (f r).dir = r.dir) (hl : ∀ r, (f r).lockWait = r.lockWait)
    (h : a.ok = true) : (a.modReq c f).ok = true :=
  Aha.ok_map (f := fun r => if r.client = c then f r else r) (by intro r; split <;> simp [hc])
    (by intro r; split <;> simp [hf]) (by intro r; split <;> simp [hd])
    (by intro r; split <;> simp [hl]) h

theorem noteMoved_client : r.noteMoved.client = r.client := by unfold Req.noteMoved; split <;> rfl
theorem noteMoved_fn : r.noteMoved.fn = r.fn := by unfold Req.noteMoved; split <;> rfl
theorem noteMoved_dir : r.noteMoved.dir = r.dir := by unfold Req.noteMoved; split <;> rfl
theorem noteMoved_lockWait : r.noteMoved.lockWait = r.lockWait := by
  unfold Req.noteMoved; split <;> rfl

theorem noteMoved_ok {a : Aha} (c : Client) (h : a.ok = true) : (a.modReq c Req.noteMoved).ok = true :=
  modReq_ok c (fun _ => noteMoved_client) (fun _ => noteMoved_fn) (fun _ => noteMoved_dir)
    (fun _ => noteMoved_lockWait) h

/-- Time only lowers the holder's timeout (R66). -/
theorem elapse_ok {a : Aha} (dt : Nat) (h : a.ok = true) : (a.elapse dt).ok = true := by
  cases hh : a.holder with
  | none =>
    obtain ⟨h1, h2, h3⟩ := (Aha.ok_none hh).1 h
    exact (Aha.ok_none (by simp [Aha.elapse, hh])).2 ⟨h1, h2, h3⟩
  | some q =>
    obtain ⟨h1, h2, h3, h4, h5, h6⟩ := (Aha.ok_some hh).1 h
    exact (Aha.ok_some (r := { q with left := Timer.elapse dt q.left }) (by simp [Aha.elapse, hh])).2
      ⟨h1, h2, h3, h4, h5, h6⟩

end

end Sys2Proof.Machine
end

