-- ==== Sys2Proof/Laws/Rods.lean ====
section
/-! SUPPORT. The registry and the carousel keep their sizes under every operation of chapter 3, and what
each operation leaves. -/

namespace Sys2Proof.Machine

section
variable (r : Rrc) (i n : Nat) (f : Rod → Rod) (l : Loc) (x : Slot) (t : Option Nat)

@[simp] theorem Rrc.modRod_registry_length : (r.modRod i f).registry.length = r.registry.length :=
  List.length_modify ..
@[simp] theorem Rrc.modRod_slots : (r.modRod i f).slots = r.slots := rfl
@[simp] theorem Rrc.modRod_string : (r.modRod i f).string = r.string := rfl
@[simp] theorem Rrc.modRod_arm : (r.modRod i f).arm = r.arm := rfl
@[simp] theorem Rrc.moveRod_registry_length : (r.moveRod i l).registry.length = r.registry.length :=
  List.length_modify ..
@[simp] theorem Rrc.moveRod_slots : (r.moveRod i l).slots = r.slots := rfl
@[simp] theorem Rrc.moveRod_string : (r.moveRod i l).string = r.string := rfl
@[simp] theorem Rrc.putSlot_registry : (r.putSlot n x).registry = r.registry := rfl
@[simp] theorem Rrc.putSlot_slots_length : (r.putSlot n x).slots.length = r.slots.length :=
  List.length_set ..
@[simp] theorem Rrc.freeSlot_registry : (r.freeSlot n).registry = r.registry := by
  unfold Rrc.freeSlot; split <;> rfl
@[simp] theorem Rrc.freeSlot_slots_length : (r.freeSlot n).slots.length = r.slots.length := by
  unfold Rrc.freeSlot; split <;> simp
@[simp] theorem Rrc.push_registry_length : (r.push i t).registry.length = r.registry.length :=
  List.length_modify ..
@[simp] theorem Rrc.push_slots : (r.push i t).slots = r.slots := rfl
@[simp] theorem Rrc.pop_registry_length : r.pop.registry.length = r.registry.length := by
  unfold Rrc.pop; split <;> simp
@[simp] theorem Rrc.pop_slots : r.pop.slots = r.slots := by unfold Rrc.pop; split <;> rfl
@[simp] theorem Rrc.reserveFor_registry (op : Op) : (r.reserveFor op n i).registry = r.registry := rfl
@[simp] theorem Rrc.reserveFor_slots_length (op : Op) :
    (r.reserveFor op n i).slots.length = r.slots.length := List.length_set ..
@[simp] theorem Rrc.stepBegun_registry : r.stepBegun.registry = r.registry := rfl
@[simp] theorem Rrc.stepBegun_slots : r.stepBegun.slots = r.slots := rfl
@[simp] theorem Rrc.stepCounted_registry : r.stepCounted.registry = r.registry := by
  unfold Rrc.stepCounted; split <;> rfl
@[simp] theorem Rrc.stepCounted_slots : r.stepCounted.slots = r.slots := by
  unfold Rrc.stepCounted; split <;> rfl

/-- A rod's entry after a change of it (R44). -/
theorem Rrc.rod_modRod_self : (r.modRod i f).rod i = (r.rod i).map f := by
  unfold Rrc.rod Rrc.modRod
  by_cases h : i < r.registry.length
  · simp [List.getD_eq_getElem?_getD, h]
  · simp [List.getD_eq_getElem?_getD, h]

/-- Every other entry stands (R44). -/
theorem Rrc.rod_modRod_of_ne {j : Nat} (h : j ≠ i) : (r.modRod i f).rod j = r.rod j := by
  unfold Rrc.rod Rrc.modRod
  simp [List.getD_eq_getElem?_getD, Ne.symm h]

/-- A slot that has been written reads as written; slots 0 to 39 exist (R52). -/
theorem Rrc.slotAt_putSlot_self (h : n < r.slots.length) : (r.putSlot n x).slotAt n = x := by
  simp [Rrc.slotAt, Rrc.putSlot, List.getD_eq_getElem?_getD, h]

/-- Every other slot stands (R52). -/
theorem Rrc.slotAt_putSlot_of_ne {m : Nat} (h : m ≠ n) : (r.putSlot n x).slotAt m = r.slotAt m := by
  simp [Rrc.slotAt, Rrc.putSlot, List.getD_eq_getElem?_getD, Ne.symm h]

end

/-- The route to a slot takes at most 20 steps (R54). -/
theorem routeTo_steps_le (index target : Nat) : (routeTo index target).2 ≤ 20 := by
  unfold routeTo
  simp only []
  split
  · assumption
  · simp only [Config.slotCount] at *; omega

end Sys2Proof.Machine
end

