-- ==== Sys2Proof/Laws/Store.lean ====
section
/-! SUPPORT. The store keeps its one form under every operation of the record writer (R125), and the
writer keeps the number of its sectors. -/

namespace Sys2Proof.Machine

/-! ## Blocks and the store's form -/

/-- An erased block reads as erased. -/
theorem Block.erased_isErased (a : Nat) : (Block.erased a).isErased = true := by
  simp [Block.isErased, Block.erased]

/-- What the form says of a store with a first block. -/
theorem storeWf_cons {b : Block} {l : List Block} :
    storeWf (b :: l) = true ↔
      b.addr < Config.storeBlocks ∧ b.normal.length = 64 ∧ b.margin.length = 64 ∧ b.isErased = false
        ∧ (∀ c ∈ l, b.addr < c.addr) ∧ storeWf l = true := by
  simp [storeWf, and_assoc]

/-- Dropping blocks keeps the form. -/
theorem storeWf_filter {p : Block → Bool} {l : List Block} (h : storeWf l = true) :
    storeWf (l.filter p) = true := by
  induction l with
  | nil => exact h
  | cons b l ih =>
    obtain ⟨h1, h2, h3, h4, h5, h6⟩ := storeWf_cons.1 h
    by_cases hp : p b = true
    · simp only [List.filter_cons_of_pos hp]
      exact storeWf_cons.2 ⟨h1, h2, h3, h4, fun c hc => h5 c ((List.mem_filter.1 hc).1), ih h6⟩
    · simp only [List.filter_cons_of_neg hp]
      exact ih h6

/-- A block that stands in a list after an insertion is the one inserted or stood there before. -/
theorem mem_insertBlock {b c : Block} {l : List Block} (h : c ∈ insertBlock b l) : c = b ∨ c ∈ l := by
  induction l with
  | nil => simp only [insertBlock] at h; split at h <;> simp_all
  | cons d l ih =>
    simp only [insertBlock] at h
    split at h
    · split at h <;> simp_all
    · split at h
      · split at h
        · exact .inr (List.mem_cons_of_mem _ h)
        · rcases List.mem_cons.1 h with h | h
          · exact .inl h
          · exact .inr (List.mem_cons_of_mem _ h)
      · rcases List.mem_cons.1 h with h | h
        · exact .inr (by simp [h])
        · rcases ih h with h | h
          · exact .inl h
          · exact .inr (by simp [h])

/-- Writing a whole block keeps the form. -/
theorem storeWf_insertBlock {b : Block} {l : List Block} (ha : b.addr < Config.storeBlocks)
    (hn : b.normal.length = 64) (hm : b.margin.length = 64) (h : storeWf l = true) :
    storeWf (insertBlock b l) = true := by
  induction l with
  | nil =>
    simp only [insertBlock]; split
    · rfl
    · exact storeWf_cons.2 ⟨ha, hn, hm, by simp_all, by simp, rfl⟩
  | cons c l ih =>
    obtain ⟨h1, h2, h3, h4, h5, h6⟩ := storeWf_cons.1 h
    simp only [insertBlock]
    split
    · rename_i hlt
      split
      · exact h
      · refine storeWf_cons.2 ⟨ha, hn, hm, by simp_all, fun d hd => ?_, h⟩
        rcases List.mem_cons.1 hd with rfl | hd
        · exact hlt
        · exact Nat.lt_trans hlt (h5 d hd)
    · split
      · rename_i heq
        split
        · exact h6
        · exact storeWf_cons.2 ⟨ha, hn, hm, by simp_all, fun d hd => heq ▸ h5 d hd, h6⟩
      · refine storeWf_cons.2 ⟨h1, h2, h3, h4, fun d hd => ?_, ih h6⟩
        rcases mem_insertBlock hd with rfl | hd
        · omega
        · exact h5 d hd

/-- A listed block of a store in its form has 64 bytes at each level. -/
theorem storeWf_mem {b : Block} {l : List Block} (h : storeWf l = true) (hb : b ∈ l) :
    b.normal.length = 64 ∧ b.margin.length = 64 := by
  induction l with
  | nil => cases hb
  | cons c l ih =>
    obtain ⟨-, h2, h3, -, -, h6⟩ := storeWf_cons.1 h
    rcases List.mem_cons.1 hb with rfl | hb
    · exact ⟨h2, h3⟩
    · exact ih h6 hb

/-- Every block reads as 64 bytes at each level (R125). -/
theorem blockAt_length {l : List Block} (h : storeWf l = true) (a : Nat) :
    (blockAt l a).normal.length = 64 ∧ (blockAt l a).margin.length = 64 := by
  unfold blockAt
  cases hf : l.find? (fun b => b.addr == a) with
  | none => simp [Block.erased]
  | some b => exact storeWf_mem h (List.mem_of_find?_eq_some hf)

/-- Writing a block keeps the form, at any address. -/
theorem storeWf_putBlock {b : Block} {l : List Block} (hn : b.normal.length = 64)
    (hm : b.margin.length = 64) (h : storeWf l = true) : storeWf (putBlock b l) = true := by
  unfold putBlock
  split
  · exact storeWf_insertBlock ‹_› hn hm h
  · exact h

theorem storeWf_programBlock {l : List Block} (h : storeWf l = true) (a : Nat) (p : List Byte) :
    storeWf (programBlock l a p) = true := by
  obtain ⟨h1, h2⟩ := blockAt_length h a
  refine storeWf_putBlock ?_ ?_ h <;> simp [h1, h2]

theorem storeWf_eraseSector {l : List Block} (h : storeWf l = true) (n : Nat) :
    storeWf (eraseSector l n) = true := storeWf_filter h

/-- A fold of byte writes keeps a length. -/
theorem length_foldl_set (g : CellRead → Byte) (cells : List CellRead) (l : List Byte) :
    (cells.foldl (fun l c => l.set c.offset (g c)) l).length = l.length := by
  induction cells generalizing l with
  | nil => rfl
  | cons c cells ih => simp [ih]

theorem storeWf_ageBlock {l : List Block} (h : storeWf l = true) (a : Nat) (cells : List CellRead) :
    storeWf (ageBlock l a cells) = true := by
  obtain ⟨h1, h2⟩ := blockAt_length h a
  exact storeWf_putBlock ((length_foldl_set _ _ _).trans h1) ((length_foldl_set _ _ _).trans h2) h

/-- A fold of operations that keep the form keeps it. -/
theorem storeWf_foldl {α : Type} {f : List Block → α → List Block}
    (hf : ∀ l a, storeWf l = true → storeWf (f l a) = true) (as : List α) {l : List Block}
    (h : storeWf l = true) : storeWf (as.foldl f l) = true := by
  induction as generalizing l with
  | nil => exact h
  | cons a as ih => exact ih (hf l a h)

/-! ## The writer's operations

Each one's store and number of sectors. -/

section
variable (r : Rws)

@[simp] theorem beginErase_store (n : Nat) : (beginErase n r).store = r.store := rfl
@[simp] theorem beginErase_sectors_length (n : Nat) :
    (beginErase n r).sectors.length = r.sectors.length := List.length_set ..
@[simp] theorem endErase_store (n : Nat) : (endErase n r).store = eraseSector r.store n := rfl
@[simp] theorem endErase_sectors_length (n : Nat) :
    (endErase n r).sectors.length = r.sectors.length := List.length_set ..
@[simp] theorem beginProgram_store : (beginProgram r).store = r.store := rfl
@[simp] theorem beginProgram_sectors : (beginProgram r).sectors = r.sectors := rfl
@[simp] theorem beginVerify_store : (beginVerify r).store = r.store := rfl
@[simp] theorem beginVerify_sectors : (beginVerify r).sectors = r.sectors := rfl
@[simp] theorem beginVoid_store (w : VoidFor) : (beginVoid w r).store = r.store := rfl
@[simp] theorem beginVoid_sectors (w : VoidFor) : (beginVoid w r).sectors = r.sectors := rfl
@[simp] theorem endWrite_store : (endWrite r).store = r.store := rfl
@[simp] theorem endWrite_sectors : (endWrite r).sectors = r.sectors := rfl

@[simp] theorem placeWrite_store (b : Bool) : (placeWrite b r).store = r.store := by
  fun_cases placeWrite b r <;> rfl
@[simp] theorem placeWrite_sectors_length (b : Bool) :
    (placeWrite b r).sectors.length = r.sectors.length := by
  fun_cases placeWrite b r <;> first | rfl | exact List.length_set ..
@[simp] theorem writerTest_store : (writerTest r).store = r.store := by
  fun_cases writerTest r <;> simp
@[simp] theorem writerTest_sectors_length : (writerTest r).sectors.length = r.sectors.length := by
  fun_cases writerTest r <;> simp
@[simp] theorem toVerifySlot_store : (toVerifySlot r).store = r.store := by
  fun_cases toVerifySlot r <;> simp
@[simp] theorem toVerifySlot_sectors : (toVerifySlot r).sectors = r.sectors := by
  fun_cases toVerifySlot r <;> simp
@[simp] theorem blockDone_sectors_length : (blockDone r).sectors.length = r.sectors.length := by
  fun_cases blockDone r
  · simp only []; split <;> simp
  · rfl
@[simp] theorem voidBlock_sectors : (voidBlock r).sectors = r.sectors := by
  fun_cases voidBlock r <;> simp
@[simp] theorem verifyRead_sectors (c : List CellRead) : (verifyRead c r).1.sectors = r.sectors := by
  fun_cases verifyRead c r <;> rfl
@[simp] theorem verifyPassed_store : (verifyPassed r).store = r.store := by
  fun_cases verifyPassed r <;> simp
@[simp] theorem verifyPassed_sectors : (verifyPassed r).sectors = r.sectors := by
  fun_cases verifyPassed r <;> simp
@[simp] theorem scanEnd_sectors_length : (scanEnd r).sectors.length = Config.sectorCount := by
  simp [scanEnd]

variable {r}

theorem storeWf_blockDone (h : storeWf r.store = true) : storeWf (blockDone r).store = true := by
  fun_cases blockDone r
  · exact storeWf_programBlock h _ _
  · exact h
theorem storeWf_voidBlock (h : storeWf r.store = true) : storeWf (voidBlock r).store = true := by
  fun_cases voidBlock r
  · exact storeWf_programBlock h _ _
  · exact h
theorem storeWf_verifyRead (h : storeWf r.store = true) (c : List CellRead) :
    storeWf (verifyRead c r).1.store = true := by
  fun_cases verifyRead c r <;> first | exact storeWf_ageBlock h _ _ | exact h
theorem storeWf_scanEnd (h : storeWf r.store = true) : storeWf (scanEnd r).store = true :=
  storeWf_foldl (fun _ _ hl => storeWf_programBlock hl _ _) _ h
theorem storeWf_rwsPowerFail (h : storeWf r.store = true) : storeWf (rwsPowerFail r).store = true := by
  have e := storeWf_blockDone h
  unfold rwsPowerFail
  simp only []
  split
  · split
    · exact storeWf_voidBlock h
    · split
      · rw [toVerifySlot_store]; exact e
      · exact e
  · exact h
  · exact h

theorem rwsPowerFail_sectors_length : (rwsPowerFail r).sectors.length = r.sectors.length := by
  unfold rwsPowerFail
  simp only []
  split
  · split
    · simp
    · split <;> simp
  · rfl
  · rfl

end

end Sys2Proof.Machine
end

