-- ==== Sys2Proof/Laws/Keeps.lean ====
section
/-! SUPPORT. What every operation of the blocks keeps: the line, the parameters, the supervisor, the
queue, the hours, the tariffs and the rig's signals; and the form of the store, the order of the arbiter and the sizes of
the tables. One lemma for each operation; each is read from the inside out. -/

namespace Sys2Proof.Machine

/-! ## The relation -/

/-- The part of the billing unit that only ticks, requests and starts change. -/
structure Hours where
  category : Category
  breakdown : Option Nat
  jobSt : JobSt
  job : Option JobRec
  openSecs : Nat
  lossCat : Option Category
  tariffs : List (Option Tariff)
  time : List Nat
  sinceTime : List Nat
  mats : List Nat
  sinceMats : List Nat
  sinceFrom : Option Nat
  nextTicket : Nat

/-- That part of a billing unit. -/
def Bu.hours (b : Bu) : Hours :=
  ⟨b.category, b.breakdown, b.jobSt, b.job, b.openSecs, b.lossCat, b.tariffs, b.totals.time,
    b.since.time, b.totals.mats, b.since.mats, b.sinceFrom, b.nextTicket⟩

/-- The front end without its watch groups. -/
def Sfe.inputs (f : Sfe) : Sfe := { f with g0 := .reset, g1 := .reset, g2 := .reset, g3 := .reset }

/-- What an operation of the blocks keeps from `s` to `t`. -/
structure Keeps (s t : State) : Prop where
  line : { t.lc with notices := [] } = { s.lc with notices := [] }
  params : t.params = s.params
  tps : t.tps = s.tps
  pending : t.pending = s.pending
  hours : t.bu.hours = s.bu.hours
  inputs : t.sfe.inputs = s.sfe.inputs
  store : s.storeOk → t.storeOk
  aha : s.ahaOk → t.ahaOk
  tables : s.tablesOk → t.tablesOk

theorem Keeps.refl (s : State) : Keeps s s := ⟨rfl, rfl, rfl, rfl, rfl, rfl, id, id, id⟩

theorem Keeps.trans {s t u : State} (h : Keeps s t) (g : Keeps t u) : Keeps s u :=
  ⟨g.line.trans h.line, g.params.trans h.params, g.tps.trans h.tps, g.pending.trans h.pending,
    g.hours.trans h.hours, g.inputs.trans h.inputs, fun x => g.store (h.store x),
    fun x => g.aha (h.aha x), fun x => g.tables (h.tables x)⟩

section
variable {s0 s : State}

theorem Keeps.setSfe {x : Sfe} (h : Keeps s0 s) (e : x.inputs = s.sfe.inputs) :
    Keeps s0 (s.setSfe x) :=
  h.trans ⟨rfl, rfl, rfl, rfl, rfl, e, id, id,
    fun t => ⟨(congrArg (fun f : Sfe => f.stab.length) e).trans t.1, t.2⟩⟩

theorem Keeps.setCm {x : Cm} (h : Keeps s0 s) : Keeps s0 (s.setCm x) :=
  h.trans ⟨rfl, rfl, rfl, rfl, rfl, rfl, id, id, id⟩

theorem Keeps.setHs {x : Hs} (h : Keeps s0 s) : Keeps s0 (s.setHs x) :=
  h.trans ⟨rfl, rfl, rfl, rfl, rfl, rfl, id, id, id⟩

theorem Keeps.setDib {x : Dib} (h : Keeps s0 s) : Keeps s0 (s.setDib x) :=
  h.trans ⟨rfl, rfl, rfl, rfl, rfl, rfl, id, id, id⟩

theorem Keeps.setReports {x : List Report} (h : Keeps s0 s) : Keeps s0 (s.setReports x) :=
  h.trans ⟨rfl, rfl, rfl, rfl, rfl, rfl, id, id, id⟩

theorem Keeps.setRrc {x : Rrc} (h : Keeps s0 s) (e : x.registry.length = s.rrc.registry.length)
    (e' : x.slots.length = s.rrc.slots.length) : Keeps s0 (s.setRrc x) :=
  h.trans ⟨rfl, rfl, rfl, rfl, rfl, rfl, id, id,
    fun t => ⟨t.1, t.2.1, e.trans t.2.2.1, e'.trans t.2.2.2.1, t.2.2.2.2⟩⟩

theorem Keeps.setAha {x : Aha} (h : Keeps s0 s) (e : s.ahaOk → x.ok = true) : Keeps s0 (s.setAha x) :=
  h.trans ⟨rfl, rfl, rfl, rfl, rfl, rfl, id, e, id⟩

theorem Keeps.setRws {x : Rws} (h : Keeps s0 s) (e : s.storeOk → storeWf x.store = true)
    (e' : x.sectors.length = s.rws.sectors.length) : Keeps s0 (s.setRws x) :=
  h.trans ⟨rfl, rfl, rfl, rfl, rfl, rfl, e, id,
    fun t => ⟨t.1, t.2.1, t.2.2.1, t.2.2.2.1, e'.trans t.2.2.2.2.1, t.2.2.2.2.2⟩⟩

theorem Keeps.setBu {x : Bu} (h : Keeps s0 s) (e : x.hours = s.bu.hours) : Keeps s0 (s.setBu x) :=
  h.trans ⟨rfl, rfl, rfl, rfl, e, rfl, id, id,
    fun t => ⟨t.1, t.2.1, t.2.2.1, t.2.2.2.1, t.2.2.2.2.1,
      (congrArg (fun h : Hours => h.tariffs.length) e).trans t.2.2.2.2.2.1, t.2.2.2.2.2.2⟩⟩

theorem Keeps.raise {d : Detail} (h : Keeps s0 s) : Keeps s0 (s.raise d) :=
  h.trans ⟨rfl, rfl, rfl, rfl, rfl, rfl, id, id,
    fun t => ⟨t.1, t.2.1, t.2.2.1, t.2.2.2.1, t.2.2.2.2.1, t.2.2.2.2.2.1,
      (List.length_modify ..).trans t.2.2.2.2.2.2⟩⟩

theorem Keeps.report {r : Report} (h : Keeps s0 s) : Keeps s0 (s.report r) := h.setReports

theorem Keeps.setGroup {n : GroupNo} {g : Group} (h : Keeps s0 s) : Keeps s0 (s.setGroup n g) := by
  cases n <;> exact h.setSfe rfl

theorem Keeps.fold {α : Type} {f : State → α → State} (hf : ∀ t a, Keeps s0 t → Keeps s0 (f t a))
    (l : List α) : ∀ {s : State}, Keeps s0 s → Keeps s0 (l.foldl f s) := by
  induction l with
  | nil => intro s h; exact h
  | cons a l ih => intro s h; exact ih (hf _ a h)

end

/-! ## Watch groups -/

theorem writeGroup_fst {s0 s : State} {n sel pat} (h : Keeps s0 s) :
    Keeps s0 (writeGroup n sel pat s).1 := by
  fun_cases writeGroup <;> repeat with_reducible (first | exact h | apply Keeps.setGroup)

theorem writeGroup_keeps {s0 s t : State} {n sel pat x}
    (e : writeGroup n sel pat s = (t, x)) (h : Keeps s0 s) :
    Keeps s0 t := by
  simpa only [e] using writeGroup_fst (s := s) (n := n) (sel := sel) (pat := pat) h

theorem disarmGroup_keeps {s0 s : State} {n} (h : Keeps s0 s) : Keeps s0 (disarmGroup n s) := by
  exact writeGroup_fst h

theorem clearGroupFlag_keeps {s0 s : State} {n} (h : Keeps s0 s) :
    Keeps s0 (clearGroupFlag n s) := by
  fun_cases clearGroupFlag <;> repeat with_reducible (first | exact h | apply Keeps.setGroup)

theorem evalGroup_fst {s0 s : State} {n} (h : Keeps s0 s) : Keeps s0 (evalGroup n s).1 := by
  fun_cases evalGroup <;> repeat with_reducible (first | exact h | apply Keeps.setGroup)

theorem evalGroup_keeps {s0 s t : State} {n x} (e : evalGroup n s = (t, x)) (h : Keeps s0 s) :
    Keeps s0 t := by
  simpa only [e] using evalGroup_fst (s := s) (n := n) h

theorem evalGroupOn_fst {s0 s : State} {n sw} (h : Keeps s0 s) :
    Keeps s0 (evalGroupOn n sw s).1 := by
  fun_cases evalGroupOn <;> repeat with_reducible (first | exact h | apply evalGroup_fst)

theorem evalGroupOn_keeps {s0 s t : State} {n sw x}
    (e : evalGroupOn n sw s = (t, x)) (h : Keeps s0 s) :
    Keeps s0 t := by
  simpa only [e] using evalGroupOn_fst (s := s) (n := n) (sw := sw) h

/-! ## Rods -/

theorem wearOut_keeps {s0 s : State} {i c} (h : Keeps s0 s) : Keeps s0 (wearOut i c s) := by
  fun_cases wearOut <;>
    repeat (first
      | with_reducible (first | apply Keeps.raise | apply Keeps.setRrc)
      | simp [*])

theorem countConnection_keeps {s0 s : State} {i} (h : Keeps s0 s) :
    Keeps s0 (countConnection i s) := by
  fun_cases countConnection <;>
    repeat (first
      | with_reducible (first | apply wearOut_keeps | apply Keeps.setRrc)
      | simp [*])

theorem addDistance_keeps {s0 s : State} {x i} (h : Keeps s0 s) :
    Keeps s0 (addDistance x i s) := by
  fun_cases addDistance <;>
    repeat (first
      | with_reducible (first | apply Keeps.setRrc)
      | simp [*])

theorem testDistance_keeps {s0 s : State} {i} (h : Keeps s0 s) : Keeps s0 (testDistance i s) := by
  fun_cases testDistance <;> repeat with_reducible (first | exact h | apply wearOut_keeps)

theorem drilledDistance_keeps {s0 s : State} {x} (h : Keeps s0 s) :
    Keeps s0 (drilledDistance x s) := by
  exact Keeps.fold (fun _ _ => testDistance_keeps) _ (Keeps.fold (fun _ _ => addDistance_keeps) _ h)

theorem testLimits_keeps {s0 s : State} {i} (h : Keeps s0 s) : Keeps s0 (testLimits s i) := by
  fun_cases testLimits <;> repeat with_reducible (first | exact h | apply wearOut_keeps)

theorem testAllLimits_keeps {s0 s : State} (h : Keeps s0 s) : Keeps s0 (testAllLimits s) := by
  exact Keeps.fold (fun _ _ => testLimits_keeps) _ h

/-! ## The store -/

theorem handOver_fst {s0 s : State} {kind job body fresh item} (h : Keeps s0 s) :
    Keeps s0 (handOver kind job body fresh item s).1 := by
  fun_cases handOver <;>
    repeat (first
      | with_reducible (first | exact h | apply Keeps.raise | apply Keeps.setRws)
      | exact fun hs => hs
      | (intro hs; first | rwa [placeWrite_store] | rwa [writerTest_store])
      | exact writerTest_sectors_length ..
      | rfl)

theorem handOver_keeps {s0 s t : State} {kind job body fresh item x}
    (e : handOver kind job body fresh item s = (t, x)) (h : Keeps s0 s) :
    Keeps s0 t := by
  simpa only [e] using handOver_fst (s := s) (kind := kind) (job := job) (body := body)
    (fresh := fresh) (item := item) h

theorem afterFailure_keeps {s0 s : State} (h : Keeps s0 s) : Keeps s0 (afterFailure s) := by
  fun_cases afterFailure <;>
    repeat (first
      | with_reducible (first | exact h | apply Keeps.raise | apply Keeps.setRws)
      | exact fun hs => hs
      | (intro hs; first | rwa [placeWrite_store] | rwa [writerTest_store])
      | exact placeWrite_sectors_length ..
      | rfl)

theorem recoverWrite_keeps {s0 s : State} (h : Keeps s0 s) : Keeps s0 (recoverWrite s) := by
  fun_cases recoverWrite <;>
    repeat (first
      | with_reducible (first | exact h | apply afterFailure_keeps | apply Keeps.setRws)
      | exact fun hs => hs
      | (intro hs; first | rwa [placeWrite_store] | rwa [writerTest_store])
      | exact placeWrite_sectors_length ..
      | rfl)

theorem recoverStart_keeps {s0 s : State} (h : Keeps s0 s) : Keeps s0 (recoverStart s) := by
  fun_cases recoverStart <;>
    repeat (first
      | with_reducible (first | exact h | apply recoverWrite_keeps | apply Keeps.setRws)
      | exact fun hs => hs
      | exact List.length_set ..
      | rfl)

/-! ## Billing -/

theorem OutRec.handOver_fst {s0 s : State} {r} (h : Keeps s0 s) :
    Keeps s0 (OutRec.handOver r s).1 := by
  cases r <;> exact Machine.handOver_fst h

theorem OutRec.handOver_keeps {s0 s t : State} {r x}
    (e : OutRec.handOver r s = (t, x)) (h : Keeps s0 s) :
    Keeps s0 t := by
  simpa only [e] using OutRec.handOver_fst (s := s) (r := r) h

theorem accrueFootage_keeps {s0 s : State} {h0 h1} (h : Keeps s0 s) :
    Keeps s0 (accrueFootage h0 h1 s) := by
  fun_cases accrueFootage <;>
    repeat (first
      | with_reducible (first | exact h | apply Keeps.setBu)
      | rfl)

theorem OutRec.taken_hours (r : OutRec) (q : Nat) (b : Bu) : (r.taken q b).hours = b.hours := by
  cases r <;> rfl

theorem handOutbox_keeps {n : Nat} {s0 s : State} (h : Keeps s0 s) : Keeps s0 (handOutbox n s) := by
  induction n generalizing s with
  | zero => exact h
  | succ n ih =>
    unfold handOutbox
    split
    · exact h
    · rename_i r rest _
      rcases e : r.handOver s with ⟨t, q⟩
      have ht := OutRec.handOver_keeps e h
      cases q with
      | none => exact ht
      | some q => exact ih (ht.setBu (r.taken_hours q t.bu))

theorem buFreed_keeps {s0 s : State} (h : Keeps s0 s) : Keeps s0 (buFreed s) := by
  fun_cases buFreed <;> repeat with_reducible (first | exact h | apply handOutbox_keeps)

theorem joinOutbox_keeps {s0 s : State} {r} (h : Keeps s0 s) : Keeps s0 (joinOutbox r s) := by
  fun_cases joinOutbox <;>
    repeat (first
      | with_reducible (first | exact h | apply handOutbox_keeps | apply Keeps.setBu)
      | rfl)

/-! ## Depth -/

theorem commitHead_fst {s0 s : State} (h : Keeps s0 s) : Keeps s0 (commitHead s).1 := by
  fun_cases commitHead <;>
    repeat with_reducible (first
      | exact h | refine handOver_keeps (by assumption) ?_ | apply Keeps.setDib)

theorem commitHead_keeps {s0 s t : State} {x} (e : commitHead s = (t, x)) (h : Keeps s0 s) :
    Keeps s0 t := by
  simpa only [e] using commitHead_fst (s := s)  h

theorem testHeads_keeps {n : Nat} {s0 s : State} (h : Keeps s0 s) : Keeps s0 (testHeads n s) := by
  induction n generalizing s with
  | zero => exact h
  | succ n ih =>
    unfold testHeads
    split
    · exact h
    · split
      · rcases e : commitHead s with ⟨t, b⟩
        have ht := commitHead_keeps e h
        simp only []
        split
        · exact ih ht
        · exact ht
      · exact h

theorem testHead_keeps {s0 s : State} (h : Keeps s0 s) : Keeps s0 (testHead s) := by
  fun_cases testHead <;> repeat with_reducible (first | exact h | apply testHeads_keeps)

theorem makeRoom_fst {s0 s : State} (h : Keeps s0 s) : Keeps s0 (makeRoom s).1 := by
  fun_cases makeRoom <;>
    repeat with_reducible (first | exact h | apply commitHead_fst | apply testHead_keeps)

theorem makeRoom_keeps {s0 s t : State} {x} (e : makeRoom s = (t, x)) (h : Keeps s0 s) :
    Keeps s0 t := by
  simpa only [e] using makeRoom_fst (s := s)  h

theorem openInterval_keeps {s0 s : State} {top} (h : Keeps s0 s) :
    Keeps s0 (openInterval top s) := by
  fun_cases openInterval <;> repeat with_reducible (first | exact h | apply Keeps.setDib)

theorem closeInterval_keeps {s0 s : State} {goOn bottom} (h : Keeps s0 s) :
    Keeps s0 (closeInterval goOn bottom s) := by
  fun_cases closeInterval <;>
    repeat with_reducible (first
      | exact h | apply openInterval_keeps | apply Keeps.setDib | apply Keeps.raise)

theorem testBoundary_keeps {s0 s : State} (h : Keeps s0 s) : Keeps s0 (testBoundary s) := by
  fun_cases testBoundary <;>
    repeat with_reducible (first
      | exact h | refine makeRoom_keeps (by assumption) ?_ | apply closeInterval_keeps
      | apply Keeps.setDib)

theorem testHwm_keeps {s0 s : State} (h : Keeps s0 s) : Keeps s0 (testHwm s) := by
  fun_cases testHwm <;>
    repeat with_reducible (first
      | exact h | apply drilledDistance_keeps | apply accrueFootage_keeps
      | apply testBoundary_keeps | apply Keeps.setDib)

theorem takeDepth_keeps {s0 s : State} {x} (h : Keeps s0 s) : Keeps s0 (takeDepth x s) := by
  fun_cases takeDepth <;>
    repeat with_reducible (first | exact h | apply testHwm_keeps | apply Keeps.setDib)

theorem recompute_keeps {s0 s : State} (h : Keeps s0 s) : Keeps s0 (recompute s) := by
  fun_cases recompute <;> repeat with_reducible (first | exact h | apply takeDepth_keeps)

theorem enterLive_keeps {s0 s : State} (h : Keeps s0 s) : Keeps s0 (enterLive s) := by
  fun_cases enterLive <;>
    repeat with_reducible (first
      | exact h | apply takeDepth_keeps | apply Keeps.setDib | apply Keeps.raise)

theorem decideDepth_keeps {s0 s : State} (h : Keeps s0 s) : Keeps s0 (decideDepth s) := by
  fun_cases decideDepth <;>
    repeat with_reducible (first | exact h | apply enterLive_keeps | apply Keeps.setDib)

theorem dibHead_keeps {s0 s : State} {x} (h : Keeps s0 s) : Keeps s0 (dibHead x s) := by
  fun_cases dibHead <;>
    repeat with_reducible (first | exact h | apply recompute_keeps | apply Keeps.setDib)

theorem deliverLength_keeps {s0 s : State} (h : Keeps s0 s) : Keeps s0 (deliverLength s) := by
  fun_cases deliverLength <;>
    repeat with_reducible (first | exact h | apply recompute_keeps | apply Keeps.setDib)

theorem dibEncoder_keeps {s0 s : State} {cause} (h : Keeps s0 s) :
    Keeps s0 (dibEncoder cause s) := by
  exact (decideDepth_keeps h.setDib).raise

theorem dibTick_keeps {s0 s : State} (h : Keeps s0 s) : Keeps s0 (dibTick s) := by
  fun_cases dibTick <;> repeat with_reducible (first | exact h | apply Keeps.setDib)

theorem dibPressure_keeps {s0 s : State} {p} (h : Keeps s0 s) : Keeps s0 (dibPressure p s) := by
  fun_cases dibPressure <;> repeat with_reducible (first | exact h | apply Keeps.setDib)

theorem dibTorque_keeps {s0 s : State} {t} (h : Keeps s0 s) : Keeps s0 (dibTorque t s) := by
  fun_cases dibTorque <;> repeat with_reducible (first | exact h | apply Keeps.setDib)

theorem fallDue_keeps {s0 s : State} {cum : Nat} (l : List Entry) (h : Keeps s0 s) :
    Keeps s0 (fallDue s cum l).1 := by
  induction l generalizing s with
  | nil => exact h
  | cons e l ih =>
    simp only [fallDue]
    split
    · exact ih h.raise
    · exact ih h

theorem dibWindow_keeps {s0 s : State} {cum loss gain : Nat} (h : Keeps s0 s) :
    Keeps s0 (dibWindow cum loss gain s) :=
  testHead_keeps (Keeps.setDib (fallDue_keeps _ h.setDib))

theorem closeAtMark_keeps {s0 s t : State} {goOn : Bool} (e : closeAtMark goOn s = some t)
    (h : Keeps s0 s) : Keeps s0 t := by
  unfold closeAtMark at e
  rcases hm : makeRoom s with ⟨u, b⟩
  rw [hm] at e
  simp only [] at e
  split at e
  · cases e; exact closeInterval_keeps (makeRoom_keeps hm h)
  · cases e

/-! ## The arbiter's own operations

Apart from the arbiter's order, which Laws/Hydraulics.lean follows through them. -/

/-- What an operation inside the arbiter keeps: all but the arbiter's order. -/
structure KeepsRest (s t : State) : Prop where
  line : { t.lc with notices := [] } = { s.lc with notices := [] }
  params : t.params = s.params
  tps : t.tps = s.tps
  pending : t.pending = s.pending
  hours : t.bu.hours = s.bu.hours
  inputs : t.sfe.inputs = s.sfe.inputs
  store : s.storeOk → t.storeOk
  tables : s.tablesOk → t.tablesOk

theorem Keeps.rest {s t : State} (h : Keeps s t) : KeepsRest s t :=
  ⟨h.line, h.params, h.tps, h.pending, h.hours, h.inputs, h.store, h.tables⟩

theorem KeepsRest.keeps {s t : State} (h : KeepsRest s t) (a : s.ahaOk → t.ahaOk) : Keeps s t :=
  ⟨h.line, h.params, h.tps, h.pending, h.hours, h.inputs, h.store, a, h.tables⟩

theorem KeepsRest.trans {s t u : State} (h : KeepsRest s t) (g : KeepsRest t u) : KeepsRest s u :=
  ⟨g.line.trans h.line, g.params.trans h.params, g.tps.trans h.tps, g.pending.trans h.pending,
    g.hours.trans h.hours, g.inputs.trans h.inputs, fun x => g.store (h.store x),
    fun x => g.tables (h.tables x)⟩

theorem KeepsRest.refl (s : State) : KeepsRest s s := (Keeps.refl s).rest

theorem KeepsRest.setAha (s : State) (x : Aha) : KeepsRest s (s.setAha x) :=
  ⟨rfl, rfl, rfl, rfl, rfl, rfl, id, id⟩

section
variable (s : State) (r : Req)

theorem armGuard_rest {t : State} {m : Bool} (e : armGuard s = (t, m)) : KeepsRest s t :=
  (writeGroup_keeps e (.refl s)).rest

theorem driveIndex_rest : KeepsRest s (driveIndex r s) :=
  ⟨rfl, rfl, rfl, rfl, rfl, rfl, id, id⟩

theorem report_rest (x : Report) : KeepsRest s (s.report x) := (Keeps.refl s).report.rest

theorem guardFailed_rest : KeepsRest s (guardFailed r s) :=
  (disarmGroup_keeps (.refl s)).report.rest

theorem tryGrant_rest {t : State} {b : Bool} (e : tryGrant r s = (t, b)) : KeepsRest s t := by
  unfold tryGrant at e
  split at e
  · cases e; exact (Keeps.refl s).report.rest
  · split at e
    · rcases hg : armGuard s with ⟨u, m⟩
      have hu := armGuard_rest s hg
      rw [hg] at e
      simp only [] at e
      split at e
      · cases e; exact hu.trans (guardFailed_rest u r)
      · split at e
        · cases e; exact hu.trans ((report_rest u _).trans (driveIndex_rest _ r))
        · cases e; exact hu.trans ((report_rest u _).trans (.setAha _ _))
    · cases e; exact (report_rest s _).trans (.setAha _ _)

theorem passOn_rest (n : Nat) : KeepsRest s (passOn n s) := by
  induction n generalizing s with
  | zero => exact .refl s
  | succ n ih =>
    unfold passOn
    split
    · exact .refl s
    · rename_i q a _
      rcases hg : tryGrant q (s.setAha a) with ⟨u, b⟩
      have hu := (KeepsRest.setAha s a).trans (tryGrant_rest _ q hg)
      simp only []
      split
      · exact hu
      · exact hu.trans (ih u)

theorem stopHolder_rest : KeepsRest s (stopHolder s) := by
  unfold stopHolder
  split
  · exact .refl s
  · refine KeepsRest.trans ?_ (.setAha _ _)
    split
    · exact (disarmGroup_keeps (.refl s)).rest
    · exact .refl s

theorem suspendHolder_rest : KeepsRest s (suspendHolder r s) :=
  (stopHolder_rest s).trans ((KeepsRest.setAha _ _).trans (report_rest _ _))

theorem grantNow_rest : KeepsRest s (grantNow r s) := by
  unfold grantNow
  rcases hg : tryGrant r s with ⟨u, b⟩
  have hu := tryGrant_rest s r hg
  simp only []
  split
  · exact hu
  · exact hu.trans (passOn_rest u _)

end

section
variable {s0 s : State}

/-- The holder's motion ends with a report, and the grant passes on (R67 to R69). -/
theorem endHolder_keeps {x : Report} (h : Keeps s0 s) : Keeps s0 (endHolder x s) :=
  h.trans (((stopHolder_rest s).trans
    (((Keeps.refl _).report (r := x)).rest.trans (passOn_rest _ _))).keeps (endHolder_aha x))

/-- A request arrives (R63 to R65). -/
theorem requestMotion_keeps {r : Req} (h : Keeps s0 s) : Keeps s0 (requestMotion r s) := by
  refine h.trans (KeepsRest.keeps ?_ requestMotion_aha)
  unfold requestMotion
  split
  · exact report_rest s _
  · split
    · exact report_rest s _
    · split
      · exact grantNow_rest s r
      · split
        · exact (suspendHolder_rest s _).trans (grantNow_rest _ r)
        · exact .setAha s _

/-- A client withdraws its request (R70). -/
theorem withdraw_keeps {c : Client} (h : Keeps s0 s) : Keeps s0 (withdraw c s) := by
  refine h.trans (KeepsRest.keeps ?_ (withdraw_aha c))
  unfold withdraw
  split
  · exact (stopHolder_rest s).trans (passOn_rest _ _)
  · exact .setAha s _

/-- INDEX LOCKED has been taken on (R67, R71, R73). -/
theorem ahaLocked_keeps {b : Bool} (h : Keeps s0 s) : Keeps s0 (ahaLocked b s) := by
  unfold ahaLocked
  have hn : Keeps s0 (if b then s.setAha (s.aha.modReq .manual Req.noteMoved) else s) := by
    split
    · exact h.setAha (noteMoved_ok _)
    · exact h
  generalize (if b then s.setAha (s.aha.modReq .manual Req.noteMoved) else s) = u at hn
  simp only []
  split
  · exact hn
  · rename_i r hr
    split
    · exact hn
    · rename_i hf
      split
      · split
        · exact endHolder_keeps hn
        · rcases hg : armGuard u with ⟨v, m⟩
          have hv : Keeps s0 v := writeGroup_keeps hg hn
          have ha : v.aha = u.aha := by simpa [hg] using armGuard_aha (s := u)
          simp only []
          split
          · exact endHolder_keeps hv
          · refine hv.trans (KeepsRest.keeps (driveIndex_rest v r) fun ok => ?_)
            obtain ⟨h1, h2, h3, h4, h5, -⟩ := (Aha.ok_some (ha ▸ hr)).1 ok
            exact driveIndex_ok (by simpa using hf) h1 h2 h3 h4 h5
      · split
        · exact endHolder_keeps hn
        · exact hn

end

/-! ## The arbiter's events -/

theorem ahaSwitchOn_keeps {s0 s : State} {sw} (h : Keeps s0 s) : Keeps s0 (ahaSwitchOn sw s) := by
  fun_cases ahaSwitchOn <;> repeat with_reducible (first | exact h | apply endHolder_keeps)

theorem ahaGuard_keeps {s0 s : State} {mism} (h : Keeps s0 s) : Keeps s0 (ahaGuard mism s) := by
  fun_cases ahaGuard <;> repeat with_reducible (first | exact h | apply endHolder_keeps)

theorem ahaTimeout_keeps {s0 s : State} (h : Keeps s0 s) : Keeps s0 (ahaTimeout s) := by
  fun_cases ahaTimeout <;> repeat with_reducible (first | exact h | apply endHolder_keeps)

theorem loaderTest_keeps {s0 s : State} (h : Keeps s0 s) : Keeps s0 (loaderTest s) := by
  fun_cases loaderTest <;>
    repeat (first
      | with_reducible (first
        | exact h | apply requestMotion_keeps | apply withdraw_keeps | apply Keeps.setRrc)
      | rfl)

theorem loaderDone_keeps {s0 s : State} (h : Keeps s0 s) : Keeps s0 (loaderDone s) := by
  unfold loaderDone
  split
  · exact h
  · refine Keeps.raise (Keeps.setRrc h ?_ ?_) <;> (simp only []; split <;> simp)

theorem loaderFailed_keeps {s0 s : State} {cause} (h : Keeps s0 s) :
    Keeps s0 (loaderFailed cause s) := by
  fun_cases loaderFailed <;>
    repeat (first
      | with_reducible (first | apply Keeps.raise | apply Keeps.setRrc)
      | simp [*])

theorem setHold_keeps {s0 s : State} {b} (h : Keeps s0 s) : Keeps s0 (setHold b s) := by
  fun_cases setHold <;>
    repeat (first
      | with_reducible (first | exact h | apply loaderTest_keeps | apply Keeps.setRrc)
      | rfl)

theorem manualDone_keeps {s0 s : State} {r res} (h : Keeps s0 s) :
    Keeps s0 (manualDone r res s) := by
  fun_cases manualDone <;> repeat with_reducible (first | exact h | apply Keeps.raise)

/-! ## Handling -/

theorem hsTest_keeps {s0 s : State} (h : Keeps s0 s) : Keeps s0 (hsTest s) := by
  fun_cases hsTest <;> repeat with_reducible (first | exact h | apply Keeps.report)

theorem setDepthHold_keeps {s0 s : State} {b} (h : Keeps s0 s) : Keeps s0 (setDepthHold b s) := by
  fun_cases setDepthHold <;>
    repeat with_reducible (first | exact h | apply decideDepth_keeps | apply Keeps.setHs)

theorem holdOp_keeps {s0 s : State} {cause mism} (h : Keeps s0 s) :
    Keeps s0 (holdOp cause mism s) := by
  fun_cases holdOp <;>
    repeat with_reducible (first
      | exact h | apply withdraw_keeps | apply Keeps.setHs | apply Keeps.raise)

theorem faultOp_keeps {s0 s : State} {fn cause} (h : Keeps s0 s) :
    Keeps s0 (faultOp fn cause s) := by
  fun_cases faultOp <;>
    repeat with_reducible (first | exact h | apply Keeps.setHs | apply Keeps.raise)

theorem startStage_keeps {s0 s : State} {o} (h : Keeps s0 s) : Keeps s0 (startStage o s) := by
  unfold startStage
  simp only []
  repeat (first
    | with_reducible (first
      | exact h | apply requestMotion_keeps | apply setHold_keeps | apply hsTest_keeps
      | apply setDepthHold_keeps | apply Keeps.setHs)
    | split)

theorem beginStage_keeps {s0 s : State} {stage} (h : Keeps s0 s) :
    Keeps s0 (beginStage stage s) := by
  fun_cases beginStage <;>
    repeat with_reducible (first
      | exact h | refine writeGroup_keeps (by assumption) ?_ | apply holdOp_keeps
      | apply startStage_keeps | apply Keeps.setHs)

theorem clearStopFlags_keeps {s0 s : State} (h : Keeps s0 s) : Keeps s0 (clearStopFlags s) :=
  clearGroupFlag_keeps (clearGroupFlag_keeps h)

theorem startOp_keeps {s0 s : State} {op slot rod trip} (h : Keeps s0 s) :
    Keeps s0 (startOp op slot rod trip s) := by
  fun_cases startOp <;>
    repeat with_reducible (first
      | exact h | apply clearStopFlags_keeps | apply beginStage_keeps | apply Keeps.setHs)

theorem endTrip_keeps {s0 s : State} {reason} (h : Keeps s0 s) : Keeps s0 (endTrip reason s) := by
  fun_cases endTrip <;>
    repeat with_reducible (first | exact h | apply Keeps.setHs | apply Keeps.raise)

theorem tripNext_keeps {s0 s : State} (h : Keeps s0 s) : Keeps s0 (tripNext s) := by
  fun_cases tripNext <;>
    repeat (first
      | with_reducible (first
        | apply startOp_keeps | apply endTrip_keeps | apply Keeps.setHs | apply Keeps.setRrc)
      | simp [*])

theorem tripContinue_keeps {s0 s : State} (h : Keeps s0 s) : Keeps s0 (tripContinue s) := by
  fun_cases tripContinue <;>
    repeat with_reducible (first
      | exact h | apply endTrip_keeps | apply tripNext_keeps | apply Keeps.setHs)

theorem endOp_keeps {s0 s : State} (h : Keeps s0 s) : Keeps s0 (endOp s) := by
  fun_cases endOp <;>
    repeat with_reducible (first
      | exact h | apply disarmGroup_keeps | apply tripContinue_keeps | apply Keeps.setHs
      | apply Keeps.raise)

theorem stageChanges_keeps {s0 s : State} {o} (h : Keeps s0 s) : Keeps s0 (stageChanges o s) := by
  fun_cases stageChanges <;>
    repeat (first
      | with_reducible (first
        | apply countConnection_keeps | apply deliverLength_keeps | apply dibTorque_keeps
        | apply setHold_keeps | apply setDepthHold_keeps | apply Keeps.setRrc)
      | simp [*])

theorem completeStage_keeps {s0 s : State} (h : Keeps s0 s) : Keeps s0 (completeStage s) := by
  fun_cases completeStage <;>
    repeat with_reducible (first
      | exact h | refine writeGroup_keeps (by assumption) ?_ | apply holdOp_keeps
      | apply beginStage_keeps | apply endOp_keeps | apply stageChanges_keeps | apply Keeps.setHs)

theorem hsStageMet_keeps {s0 s : State} {stage} (h : Keeps s0 s) :
    Keeps s0 (hsStageMet stage s) := by
  fun_cases hsStageMet <;> repeat with_reducible (first | exact h | apply completeStage_keeps)

theorem hsMotionDone_keeps {s0 s : State} (h : Keeps s0 s) : Keeps s0 (hsMotionDone s) := by
  fun_cases hsMotionDone <;>
    repeat with_reducible (first
      | exact h | apply requestMotion_keeps | apply completeStage_keeps | apply Keeps.setHs)

theorem hsMotionFailed_keeps {s0 s : State} {r cause mism} (h : Keeps s0 s) :
    Keeps s0 (hsMotionFailed r cause mism s) := by
  fun_cases hsMotionFailed <;>
    repeat with_reducible (first | exact h | apply holdOp_keeps | apply faultOp_keeps)

theorem hsGuard_keeps {s0 s : State} {mism} (h : Keeps s0 s) : Keeps s0 (hsGuard mism s) := by
  fun_cases hsGuard <;> repeat with_reducible (first | exact h | apply holdOp_keeps)

theorem hsPump_keeps {s0 s : State} (h : Keeps s0 s) : Keeps s0 (hsPump s) := by
  fun_cases hsPump <;> repeat with_reducible (first | exact h | apply holdOp_keeps)

theorem hsMonitor_keeps {s0 s : State} (h : Keeps s0 s) : Keeps s0 (hsMonitor s) := by
  fun_cases hsMonitor <;> repeat with_reducible (first | exact h | apply hsTest_keeps)

theorem hsGainCleared_keeps {s0 s : State} (h : Keeps s0 s) : Keeps s0 (hsGainCleared s) := by
  fun_cases hsGainCleared <;>
    repeat with_reducible (first
      | exact h | apply beginStage_keeps | apply tripNext_keeps | apply hsMonitor_keeps)

theorem hsHeadConnected_keeps {s0 s : State} (h : Keeps s0 s) : Keeps s0 (hsHeadConnected s) := by
  fun_cases hsHeadConnected <;> repeat with_reducible (first | exact h | apply hsTest_keeps)

theorem hsTorque_keeps {s0 s : State} (h : Keeps s0 s) : Keeps s0 (hsTorque s) := by
  fun_cases hsTorque <;>
    repeat with_reducible (first | exact h | apply hsTest_keeps | apply Keeps.setHs)

theorem hsRotation_keeps {s0 s : State} (h : Keeps s0 s) : Keeps s0 (hsRotation s) := by
  fun_cases hsRotation <;> repeat with_reducible (first | exact h | apply hsTest_keeps)

theorem hsHead_keeps {s0 s : State} (h : Keeps s0 s) : Keeps s0 (hsHead s) := by
  fun_cases hsHead <;> repeat with_reducible (first | exact h | apply hsTest_keeps)

theorem freeReservation_keeps {s0 s : State} {o} (h : Keeps s0 s) :
    Keeps s0 (freeReservation o s) := by
  fun_cases freeReservation <;>
    repeat (first
      | with_reducible (first | apply Keeps.setRrc)
      | simp [*])

theorem abortOp_keeps {s0 s : State} {o} (h : Keeps s0 s) : Keeps s0 (abortOp o s) := by
  unfold abortOp
  simp only []
  repeat (first
    | with_reducible (first
      | exact h | apply disarmGroup_keeps | apply withdraw_keeps | apply setHold_keeps
      | apply setDepthHold_keeps | apply endTrip_keeps | apply freeReservation_keeps
      | apply Keeps.setHs | apply Keeps.raise)
    | split)

theorem resumeOp_keeps {s0 s : State} {o} (h : Keeps s0 s) : Keeps s0 (resumeOp o s) := by
  fun_cases resumeOp <;>
    repeat with_reducible (first
      | exact h | apply clearStopFlags_keeps | apply beginStage_keeps | apply Keeps.setHs)

/-! ## Circulation -/

theorem setDivert_keeps {s0 s : State} {d} (h : Keeps s0 s) : Keeps s0 (setDivert d s) := by
  fun_cases setDivert <;> repeat with_reducible (first | exact h | apply Keeps.setCm)

theorem Keeps.ite {s0 a b : State} {c : Prop} [Decidable c] (h : Keeps s0 a) (g : Keeps s0 b) :
    Keeps s0 (if c then a else b) := by
  split
  · exact h
  · exact g

theorem autoDivert_keeps {s0 s : State} (h : Keeps s0 s) : Keeps s0 (autoDivert s) := by
  unfold autoDivert
  simp only []
  split
  · split
    · exact requestMotion_keeps (setDivert_keeps h)
    · split
      · exact (setDivert_keeps h).setAha
          (modReq_ok _ (fun _ => rfl) (fun _ => rfl) (fun _ => rfl) (fun _ => rfl))
      · exact requestMotion_keeps
          (.ite (withdraw_keeps (setDivert_keeps h)).raise (withdraw_keeps (setDivert_keeps h)))
  · split
    · exact .ite h (setDivert_keeps h)
    · exact setDivert_keeps h

theorem wellDone_keeps {s0 s : State} {r} (h : Keeps s0 s) : Keeps s0 (wellDone r s) := by
  unfold wellDone
  simp only []
  repeat (first
    | with_reducible (first | exact h | apply setDivert_keeps | apply Keeps.raise)
    | split)

theorem wellFailed_keeps {s0 s : State} {r} (h : Keeps s0 s) : Keeps s0 (wellFailed r s) := by
  unfold wellFailed
  simp only []
  repeat (first
    | with_reducible (first | exact h | apply setDivert_keeps | apply Keeps.raise)
    | split)

theorem setLatch_keeps {s0 s : State} {l src figure} (h : Keeps s0 s) :
    Keeps s0 (setLatch l src figure s) := by
  fun_cases setLatch <;>
    repeat with_reducible (first
      | exact h | apply hsMonitor_keeps | apply autoDivert_keeps | apply Keeps.setCm
      | apply Keeps.raise)

theorem clearLatch_keeps {s0 s : State} {l cause} (h : Keeps s0 s) :
    Keeps s0 (clearLatch l cause s) := by
  fun_cases clearLatch <;>
    repeat with_reducible (first
      | exact h | apply hsMonitor_keeps | apply hsGainCleared_keeps | apply Keeps.setCm
      | apply Keeps.raise)

theorem enterIdle_keeps {s0 s : State} (h : Keeps s0 s) : Keeps s0 (enterIdle s) := by
  fun_cases enterIdle <;>
    repeat with_reducible (first | exact h | apply hsMonitor_keeps | apply Keeps.setCm)

theorem enterSettling_keeps {s0 s : State} (h : Keeps s0 s) : Keeps s0 (enterSettling s) := by
  fun_cases enterSettling <;>
    repeat with_reducible (first | exact h | apply hsMonitor_keeps | apply Keeps.setCm)

theorem enterFlowCheck_keeps {s0 s : State} (h : Keeps s0 s) : Keeps s0 (enterFlowCheck s) := by
  fun_cases enterFlowCheck <;>
    repeat with_reducible (first | exact h | apply hsMonitor_keeps | apply Keeps.setCm)

theorem recordCheck_keeps {s0 s : State} {r} (h : Keeps s0 s) : Keeps s0 (recordCheck r s) := by
  fun_cases recordCheck <;>
    repeat with_reducible (first | exact h | apply Keeps.setCm | apply Keeps.raise)

theorem failCheck_keeps {s0 s : State} (h : Keeps s0 s) : Keeps s0 (failCheck s) := by
  fun_cases failCheck <;>
    repeat with_reducible (first
      | exact h | apply hsMonitor_keeps | apply setLatch_keeps | apply recordCheck_keeps
      | apply Keeps.setCm)

theorem abortEntry_keeps {s0 s : State} {cause} (h : Keeps s0 s) :
    Keeps s0 (abortEntry cause s) := by
  fun_cases abortEntry <;>
    repeat with_reducible (first
      | exact h | apply disarmGroup_keeps | apply enterIdle_keeps | apply Keeps.setCm
      | apply Keeps.raise)

theorem dropReference_keeps {s0 s : State} (h : Keeps s0 s) : Keeps s0 (dropReference s) := by
  fun_cases dropReference <;> repeat with_reducible (first | exact h | apply Keeps.setCm)

theorem monitorPumpLeft_keeps {s0 s : State} (h : Keeps s0 s) : Keeps s0 (monitorPumpLeft s) := by
  fun_cases monitorPumpLeft <;>
    repeat with_reducible (first
      | exact h | apply disarmGroup_keeps | apply enterSettling_keeps | apply recordCheck_keeps
      | apply dropReference_keeps)

theorem cmStroke_keeps {s0 s : State} {p : Pump} (h : Keeps s0 s) : Keeps s0 (cmStroke p s) := by
  unfold cmStroke
  simp only []
  generalize hu : (if ((s.cm.pump p).stroke s.sfe.ms).st = (s.cm.pump p).st then s.setCm _ else _) = u
  have ku : Keeps s0 u := hu ▸ .ite h.setCm h.setCm.raise
  have kv : Keeps s0 (if u.cm.mon = .watchEntry then abortEntry .stroke u else u) :=
    .ite (abortEntry_keeps ku) ku
  exact .ite (hsPump_keeps (hsMonitor_keeps (monitorPumpLeft_keeps kv)))
    (.ite kv (hsMonitor_keeps kv))

theorem cmPumpStopped_keeps {s0 s : State} {p} (h : Keeps s0 s) :
    Keeps s0 (cmPumpStopped p s) := by
  fun_cases cmPumpStopped <;>
    repeat with_reducible (first
      | exact h | apply hsMonitor_keeps | apply enterFlowCheck_keeps | apply Keeps.setCm
      | apply Keeps.raise)

theorem cmReturn_keeps {s0 s : State} (h : Keeps s0 s) : Keeps s0 (cmReturn s) := by
  fun_cases cmReturn <;>
    repeat with_reducible (first
      | exact h | apply failCheck_keeps | apply abortEntry_keeps | apply Keeps.setCm)

theorem testBalance_keeps {s0 s : State} {f : Force} (h : Keeps s0 s) :
    Keeps s0 (testBalance f s) := by
  unfold testBalance
  simp only []
  have k : Keeps s0 (s.setCm (s.cm.suspect f)) := h.setCm
  have l : ∀ {n m : Nat} {x : LatchName} {y : LatchSrc} {z : Int} {t : State}, Keeps s0 t →
      Keeps s0 (if n ≤ m then setLatch x y z t else t) := fun g => .ite (setLatch_keeps g) g
  exact l (l k)

theorem testClearing_keeps {s0 s : State} {f : Force} (h : Keeps s0 s) :
    Keeps s0 (testClearing f s) := by
  unfold testClearing
  have l : ∀ {n m : Nat} {x : LatchName} {y : ClearCause} {t : State}, Keeps s0 t →
      Keeps s0 (if n ≤ m then clearLatch x y t else t) := fun g => .ite (clearLatch_keeps g) g
  have k : ∀ {c : Prop} [Decidable c] {x : Cm} {n m : Nat} {y : LatchName} {z : ClearCause}
      {t : State}, Keeps s0 t →
      Keeps s0 (if c then (if n ≤ m then clearLatch y z (t.setCm x) else t.setCm x) else t) :=
    fun g => .ite (l g.setCm) g
  exact k (k h)

theorem crossCheck_keeps {s0 s : State} {f} (h : Keeps s0 s) : Keeps s0 (crossCheck f s) := by
  fun_cases crossCheck <;>
    repeat with_reducible (first | exact h | apply Keeps.setCm | apply Keeps.raise)

theorem stateSteps_keeps {s0 s : State} {f r} (h : Keeps s0 s) : Keeps s0 (stateSteps f r s) := by
  fun_cases stateSteps <;>
    repeat with_reducible (first
      | exact h | apply hsMonitor_keeps | apply testBalance_keeps | apply testClearing_keeps
      | apply crossCheck_keeps | apply Keeps.setCm)

theorem nextWindow_keeps {s0 s : State} {n} (h : Keeps s0 s) : Keeps s0 (nextWindow n s) := by
  fun_cases nextWindow <;> repeat with_reducible (first | exact h | apply Keeps.setCm)

theorem closeWindow_keeps {s0 s : State} (h : Keeps s0 s) : Keeps s0 (closeWindow s) := by
  fun_cases closeWindow <;>
    repeat with_reducible (first
      | exact h | apply dibWindow_keeps | apply stateSteps_keeps | apply nextWindow_keeps
      | apply Keeps.setCm)

theorem windowTick_keeps {s0 s : State} (h : Keeps s0 s) : Keeps s0 (windowTick s) := by
  fun_cases windowTick <;> repeat with_reducible (first | exact h | apply Keeps.setCm)

theorem idleFlow_keeps {s0 s : State} (h : Keeps s0 s) : Keeps s0 (idleFlow s) := by
  fun_cases idleFlow <;>
    repeat with_reducible (first | exact h | apply setLatch_keeps | apply Keeps.setCm)

theorem driftCheck_keeps {s0 s : State} {level ref} (h : Keeps s0 s) :
    Keeps s0 (driftCheck level ref s) := by
  fun_cases driftCheck <;>
    repeat with_reducible (first
      | exact h | apply setLatch_keeps | apply Keeps.setCm | apply Keeps.raise)

theorem driftTick_keeps {s0 s : State} (h : Keeps s0 s) : Keeps s0 (driftTick s) := by
  fun_cases driftTick <;>
    repeat with_reducible (first | exact h | apply driftCheck_keeps | apply Keeps.setCm)

theorem cmPit_keeps {s0 s : State} (h : Keeps s0 s) : Keeps s0 (cmPit s) := by
  fun_cases cmPit <;>
    repeat with_reducible (first | exact h | apply abortEntry_keeps | apply Keeps.setCm)

theorem endCapture_keeps {s0 s : State} (h : Keeps s0 s) : Keeps s0 (endCapture s) := by
  fun_cases endCapture <;>
    repeat with_reducible (first | exact h | apply hsMonitor_keeps | apply Keeps.setCm)

theorem cmGuard_keeps {s0 s : State} {mism} (h : Keeps s0 s) : Keeps s0 (cmGuard mism s) := by
  fun_cases cmGuard <;>
    repeat with_reducible (first | exact h | apply abortEntry_keeps | apply Keeps.raise)

theorem enterWatch_keeps {s0 s : State} (h : Keeps s0 s) : Keeps s0 (enterWatch s) := by
  fun_cases enterWatch <;>
    repeat with_reducible (first
      | exact h | refine writeGroup_keeps (by assumption) ?_ | apply clearGroupFlag_keeps
      | apply hsMonitor_keeps | apply abortEntry_keeps | apply Keeps.setCm)

theorem leaveWatch_keeps {s0 s : State} (h : Keeps s0 s) : Keeps s0 (leaveWatch s) := by
  fun_cases leaveWatch <;>
    repeat with_reducible (first
      | exact h | apply disarmGroup_keeps | apply enterIdle_keeps | apply dropReference_keeps
      | apply Keeps.setCm)

theorem declareVolume_keeps {s0 s : State} {v} (h : Keeps s0 s) :
    Keeps s0 (declareVolume v s) := by
  fun_cases declareVolume <;> repeat with_reducible (first | exact h | apply Keeps.setCm)

/-! ## The end of a step -/

theorem takeReport_keeps {s0 s : State} {r} (h : Keeps s0 s) : Keeps s0 (takeReport r s) := by
  fun_cases takeReport <;>
    repeat with_reducible (first
      | exact h | apply loaderDone_keeps | apply loaderFailed_keeps | apply manualDone_keeps
      | apply hsStageMet_keeps | apply hsMotionDone_keeps | apply hsMotionFailed_keeps
      | apply wellDone_keeps | apply wellFailed_keeps)

theorem settleWith_keeps {n : Nat} {s0 s : State} (h : Keeps s0 s) : Keeps s0 (settleWith n s) := by
  induction n generalizing s with
  | zero => exact h
  | succ n ih =>
    unfold settleWith
    split
    · exact h
    · exact ih (takeReport_keeps h.setReports)

theorem settle_keeps {s0 s : State} (h : Keeps s0 s) : Keeps s0 (settle s) := by
  fun_cases settle <;> repeat with_reducible (first | exact h | apply settleWith_keeps)

end Sys2Proof.Machine
end

