-- ==== Sys2Proof/Laws/Stays.lean ====
section
/-! SUPPORT. What start-up, the store's reports, the events of the rig and the transmitter leave alone:
the masks, the parameters, the tariffs and the queue of commands; and again the form of the store, the
order of the arbiter and the sizes of the tables. -/

namespace Sys2Proof.Machine

/-- What no start-up, store report or event of the rig changes, and the forms that it keeps. -/
structure Stays (s t : State) : Prop where
  mask : t.lc.mask = s.lc.mask
  params : t.params = s.params
  tariffs : t.bu.tariffs = s.bu.tariffs
  pending : t.pending = s.pending
  store : s.storeOk → t.storeOk
  aha : s.ahaOk → t.ahaOk
  tables : s.tablesOk → t.tablesOk

theorem Stays.refl (s : State) : Stays s s := ⟨rfl, rfl, rfl, rfl, id, id, id⟩

theorem Stays.trans {s t u : State} (h : Stays s t) (g : Stays t u) : Stays s u :=
  ⟨g.mask.trans h.mask, g.params.trans h.params, g.tariffs.trans h.tariffs, g.pending.trans h.pending,
    fun x => g.store (h.store x), fun x => g.aha (h.aha x), fun x => g.tables (h.tables x)⟩

theorem Keeps.stays {s t : State} (h : Keeps s t) : Stays s t :=
  ⟨by have e := congrArg Lc.mask h.line; exact e, h.params, congrArg Hours.tariffs h.hours,
    h.pending, h.store, h.aha, h.tables⟩

section
variable {s0 s : State}

/-- An operation that `Keeps` speaks of comes last. -/
theorem Stays.keeps {s t : State} (k : Keeps s t) (h : Stays s0 s) : Stays s0 t := h.trans k.stays

theorem Stays.setTps {x : Tps} (h : Stays s0 s) : Stays s0 (s.setTps x) :=
  h.trans ⟨rfl, rfl, rfl, rfl, id, id, id⟩
theorem Stays.setBu {x : Bu} (h : Stays s0 s) (e : x.tariffs = s.bu.tariffs) : Stays s0 (s.setBu x) :=
  h.trans (t := s) ⟨rfl, rfl, e, rfl, id, id, fun t => ⟨t.1, t.2.1, t.2.2.1, t.2.2.2.1, t.2.2.2.2.1,
    (congrArg List.length e).trans t.2.2.2.2.2.1, t.2.2.2.2.2.2⟩⟩
theorem Stays.setLc {x : Lc} (h : Stays s0 s) (e : x.mask = s.lc.mask)
    (e' : x.notices.length = s.lc.notices.length) : Stays s0 (s.setLc x) :=
  h.trans ⟨e, rfl, rfl, rfl, id, id, fun t => ⟨t.1, t.2.1, t.2.2.1, t.2.2.2.1, t.2.2.2.2.1,
    t.2.2.2.2.2.1, e'.trans t.2.2.2.2.2.2⟩⟩
theorem Stays.setSfe {x : Sfe} (h : Stays s0 s) (e : x.stab.length = s.sfe.stab.length) :
    Stays s0 (s.setSfe x) :=
  h.trans ⟨rfl, rfl, rfl, rfl, id, id, fun t => ⟨e.trans t.1, t.2⟩⟩
theorem Stays.setCm {x : Cm} (h : Stays s0 s) : Stays s0 (s.setCm x) := .keeps (Keeps.refl s).setCm h
theorem Stays.setHs {x : Hs} (h : Stays s0 s) : Stays s0 (s.setHs x) := .keeps (Keeps.refl s).setHs h
theorem Stays.setDib {x : Dib} (h : Stays s0 s) : Stays s0 (s.setDib x) := .keeps (Keeps.refl s).setDib h
theorem Stays.setRrc {x : Rrc} (h : Stays s0 s) (e : x.registry.length = s.rrc.registry.length)
    (e' : x.slots.length = s.rrc.slots.length) : Stays s0 (s.setRrc x) :=
  .keeps ((Keeps.refl s).setRrc e e') h
theorem Stays.setRws {x : Rws} (h : Stays s0 s) (e : s.storeOk → storeWf x.store = true)
    (e' : x.sectors.length = s.rws.sectors.length) : Stays s0 (s.setRws x) :=
  .keeps ((Keeps.refl s).setRws e e') h
theorem Stays.raise {d : Detail} (h : Stays s0 s) : Stays s0 (s.raise d) :=
  .keeps (Keeps.refl s).raise h
theorem Stays.ite {a b : State} {c : Prop} [Decidable c] (h : Stays s0 a) (g : Stays s0 b) :
    Stays s0 (if c then a else b) := by
  split
  · exact h
  · exact g

end

/-! ## The end of start-up -/

theorem tpsFreed_stays {s0 s : State} (h : Stays s0 s) : Stays s0 (tpsFreed s) := by
  fun_cases tpsFreed <;>
    repeat with_reducible (first
      | exact h | refine Stays.keeps (handOver_keeps (by assumption) (.refl _)) ?_
      | apply Stays.setTps)

theorem freedPlace_stays {s0 s : State} (h : Stays s0 s) : Stays s0 (freedPlace s) := by
  fun_cases freedPlace <;>
    repeat with_reducible (first
      | exact h | refine Stays.keeps (buFreed_keeps (.refl _)) ?_
      | refine Stays.keeps (testHead_keeps (.refl _)) ?_ | apply tpsFreed_stays)

theorem accrueGap_stays {s0 s : State} {gap} (h : Stays s0 s) : Stays s0 (accrueGap gap s) := by
  fun_cases accrueGap <;>
    repeat (first
      | with_reducible (first | exact h | apply Stays.setDib | apply Stays.setBu)
      | rfl)

theorem recordRecovery_sfst {s0 s : State} {r} (h : Stays s0 s) :
    Stays s0 (recordRecovery r s).1 := by
  fun_cases recordRecovery <;>
    repeat with_reducible (first
      | exact h | refine Stays.keeps (handOver_keeps (by assumption) (.refl _)) ?_
      | apply Stays.setTps)

theorem recordRecovery_stays {s0 s t : State} {r x}
    (e : recordRecovery r s = (t, x)) (h : Stays s0 s) :
    Stays s0 t := by
  simpa only [e] using recordRecovery_sfst (s := s) (r := r) h

theorem endWarm_stays {s0 s : State} (h : Stays s0 s) : Stays s0 (endWarm s) := by
  fun_cases endWarm <;>
    repeat with_reducible (first
      | exact h | apply accrueGap_stays | refine recordRecovery_stays (by assumption) ?_
      | apply Stays.raise | apply Stays.setTps)

theorem endCold_stays {s0 s : State} (h : Stays s0 s) : Stays s0 (endCold s) := by
  fun_cases endCold <;>
    repeat with_reducible (first | exact h | apply Stays.raise | apply Stays.setTps)

theorem buildTicket_stays {s0 s : State} {kind toSec} (h : Stays s0 s) :
    Stays s0 (buildTicket kind toSec s) := by
  fun_cases buildTicket <;>
    repeat (first
      | with_reducible (first
        | exact h | refine Stays.keeps (joinOutbox_keeps (.refl _)) ?_ | apply Stays.raise
        | apply Stays.setBu)
      | rfl)

theorem testFinal_stays {s0 s : State} (h : Stays s0 s) : Stays s0 (testFinal s) := by
  fun_cases testFinal <;>
    repeat (first
      | with_reducible (first | exact h | apply buildTicket_stays | apply Stays.setBu)
      | rfl)

theorem tryEndStartUp_stays {s0 s : State} (h : Stays s0 s) : Stays s0 (tryEndStartUp s) := by
  unfold tryEndStartUp
  split
  · simp only []
    refine testFinal_stays (.keeps (settle_keeps (.refl _)) (.keeps (loaderTest_keeps (.refl _)) ?_))
    split
    · exact endCold_stays h.setTps
    · exact endWarm_stays h.setTps
  · exact h

theorem storeReady_stays {s0 s : State} (h : Stays s0 s) : Stays s0 (storeReady s) := by
  fun_cases storeReady <;>
    repeat (first
      | with_reducible (first
        | exact h | apply freedPlace_stays | apply tryEndStartUp_stays | apply Stays.setTps
        | apply Stays.setRws)
      | exact fun hs => hs
      | (intro hs; first | rwa [placeWrite_store] | rwa [writerTest_store])
      | exact writerTest_sectors_length ..
      | rfl)

theorem writerGoesOn_stays {s0 s : State} (h : Stays s0 s) : Stays s0 (writerGoesOn s) := by
  fun_cases writerGoesOn <;>
    repeat (first
      | with_reducible (first | exact h | apply storeReady_stays | apply Stays.setRws)
      | (intro hs; first | rwa [placeWrite_store] | rwa [writerTest_store])
      | exact writerTest_sectors_length ..)

/-! ## The transmitter -/

theorem sendNotice_stays {s0 s : State} {code} (h : Stays s0 s) :
    Stays s0 (sendNotice code s) := by
  fun_cases sendNotice <;>
    repeat (first
      | with_reducible (first | apply Stays.setLc)
      | simp [*])

theorem lcService_stays {s0 s : State} (h : Stays s0 s) : Stays s0 (lcService s) := by
  fun_cases lcService <;>
    repeat (first
      | with_reducible (first | exact h | apply sendNotice_stays | apply Stays.setLc)
      | rfl)

theorem finish_stays {s0 s : State} (h : Stays s0 s) : Stays s0 (finish s) := by
  fun_cases finish <;>
    repeat with_reducible (first
      | exact h | refine Stays.keeps (settle_keeps (.refl _)) ?_ | apply lcService_stays)

/-! ## Switches -/

theorem rrcLocked_stays {s0 s : State} {b} (h : Stays s0 s) : Stays s0 (rrcLocked b s) := by
  fun_cases rrcLocked <;>
    repeat (first
      | with_reducible (first | apply Stays.setRrc)
      | simp [*]
      | split)

theorem deliverSwitch_stays {s0 s : State} {sw b} (h : Stays s0 s) :
    Stays s0 (deliverSwitch sw b s) := by
  fun_cases deliverSwitch <;>
    repeat (first
      | with_reducible (first
        | exact h | refine Stays.keeps (decideDepth_keeps (.refl _)) ?_
        | refine Stays.keeps (ahaSwitchOn_keeps (.refl _)) ?_
        | refine Stays.keeps (loaderTest_keeps (.refl _)) ?_
        | refine Stays.keeps (hsHeadConnected_keeps (.refl _)) ?_
        | refine Stays.keeps (ahaLocked_keeps (.refl _)) ?_ | apply rrcLocked_stays)
      | split)

theorem raiseGroup3_stays {s0 s : State} (h : Stays s0 s) : Stays s0 (raiseGroup3 s) := by
  fun_cases raiseGroup3 <;> repeat with_reducible (first | exact h | apply Stays.raise)

theorem groupEvent_stays {s0 s : State} {b : Bool} {f : State → State}
    (hf : ∀ {t}, Stays s0 t → Stays s0 (f t)) (h : Stays s0 s) : Stays s0 (groupEvent b f s) := by
  unfold groupEvent
  split
  · exact .keeps (settle_keeps (.refl _)) (hf h)
  · exact h

/-- The four groups' events, where they were raised, at their readers. -/
theorem groupEvents_stays {s0 s : State} {b c d e : Bool} {l m n : State → SwitchSet}
    (h : Stays s0 s) :
    Stays s0 (groupEvent e raiseGroup3 (groupEvent d (fun s => cmGuard (n s) s)
      (groupEvent c (fun s => ahaGuard (m s) s) (groupEvent b (fun s => hsGuard (l s) s) s)))) :=
  groupEvent_stays raiseGroup3_stays (groupEvent_stays (.keeps (cmGuard_keeps (.refl _)))
    (groupEvent_stays (.keeps (ahaGuard_keeps (.refl _)))
      (groupEvent_stays (.keeps (hsGuard_keeps (.refl _))) h)))

theorem takeChange_stays {s0 s : State} {sw : Switch} {on : Bool} (h : Stays s0 s) :
    Stays s0 (takeChange sw on s) := by
  unfold takeChange
  simp only []
  refine groupEvents_stays (l := fun _ => _) (m := fun _ => _) (n := fun _ => _)
    (.keeps (settle_keeps (.refl _)) (deliverSwitch_stays ?_))
  have g : ∀ {n : GroupNo} {t : State}, Stays s0 t → Stays s0 (evalGroupOn n sw t).1 :=
    fun k => .keeps (evalGroupOn_fst (.refl _)) k
  exact g (g (g (g (h.setSfe (by simp [Sfe.setTimer])))))

theorem acquiredStep_stays {s0 s : State} (h : Stays s0 s) : Stays s0 (acquiredStep s) := by
  unfold acquiredStep
  simp only []
  split
  · exact .keeps (settle_keeps (.refl _)) (.keeps (ahaLocked_keeps (.refl _)) (rrcLocked_stays h))
  · exact rrcLocked_stays h

theorem acquisitionOver_stays {s0 s : State} (h : Stays s0 s) : Stays s0 (acquisitionOver s) := by
  unfold acquisitionOver
  simp only []
  refine tryEndStartUp_stays (Stays.setTps (acquiredStep_stays ?_))
  have g : ∀ {n : GroupNo} {t : State}, Stays s0 t → Stays s0 (evalGroup n t).1 :=
    fun k => .keeps (evalGroup_fst (.refl _)) k
  exact groupEvents_stays (g (g (g (g (h.setSfe rfl)))))

/-! ## Pulses and samples -/

theorem takeStroke_stays {s0 s : State} {p : Pump} (h : Stays s0 s) :
    Stays s0 (takeStroke p s) := by
  unfold takeStroke
  cases p <;> exact .ite (.keeps (cmStroke_keeps (.refl _)) (h.setSfe rfl)) h

theorem takeReturn_stays {s0 s : State} (h : Stays s0 s) : Stays s0 (takeReturn s) := by
  fun_cases takeReturn <;>
    repeat (first
      | with_reducible (first
        | exact h | refine Stays.keeps (cmReturn_keeps (.refl _)) ?_ | apply Stays.setSfe)
      | rfl)

theorem takeRotation_stays {s0 s : State} (h : Stays s0 s) : Stays s0 (takeRotation s) := by
  fun_cases takeRotation <;>
    repeat (first
      | with_reducible (first
        | exact h | refine Stays.keeps (hsRotation_keeps (.refl _)) ?_ | apply Stays.setSfe)
      | rfl)

theorem encoderFault_stays {s0 s : State} {c} (h : Stays s0 s) : Stays s0 (encoderFault c s) := by
  fun_cases encoderFault <;>
    repeat (first
      | with_reducible (first
        | exact h | refine Stays.keeps (dibEncoder_keeps (.refl _)) ?_ | apply Stays.setSfe)
      | rfl)

theorem newHead_stays {s0 s : State} {x} (h : Stays s0 s) : Stays s0 (newHead x s) := by
  fun_cases newHead <;>
    repeat (first
      | with_reducible (first
        | exact h | refine Stays.keeps (dibHead_keeps (.refl _)) ?_
        | refine Stays.keeps (hsHead_keeps (.refl _)) ?_ | apply Stays.setSfe)
      | rfl)

theorem takeEncoder_stays {s0 s : State} {d} (h : Stays s0 s) : Stays s0 (takeEncoder d s) := by
  fun_cases takeEncoder <;>
    repeat with_reducible (first | exact h | apply encoderFault_stays | apply newHead_stays)

theorem sensorFault_stays {s0 s : State} {i x r} (h : Stays s0 s) :
    Stays s0 (sensorFault i x r s) := by
  fun_cases sensorFault <;> repeat with_reducible (first | exact h | apply Stays.raise)

theorem deliverPressure_stays {s0 s : State} (h : Stays s0 s) : Stays s0 (deliverPressure s) := by
  fun_cases deliverPressure <;>
    repeat with_reducible (first | exact h | refine Stays.keeps (dibPressure_keeps (.refl _)) ?_)

theorem takeSample_stays {s0 s : State} {pit pressure torque} (h : Stays s0 s) :
    Stays s0 (takeSample pit pressure torque s) := by
  fun_cases takeSample <;>
    repeat (first
      | with_reducible (first
        | exact h | refine Stays.keeps (hsTorque_keeps (.refl _)) ?_
        | refine Stays.keeps (cmPit_keeps (.refl _)) ?_ | apply sensorFault_stays
        | apply deliverPressure_stays | apply Stays.setSfe)
      | rfl)

/-! ## Ticks and timers -/

theorem clockOn_stays {s0 s : State} (h : Stays s0 s) : Stays s0 (clockOn s) := by
  fun_cases clockOn <;> repeat with_reducible (first | exact h | apply Stays.setTps)

theorem classify_stays {s0 s : State} (h : Stays s0 s) : Stays s0 (classify s) := by
  fun_cases classify <;>
    repeat (first
      | with_reducible (first | exact h | apply Stays.setBu)
      | rfl
      | split)

theorem deliverTick_stays {s0 s : State} (h : Stays s0 s) : Stays s0 (deliverTick s) := by
  fun_cases deliverTick <;>
    repeat with_reducible (first
      | exact h | refine Stays.keeps (dibTick_keeps (.refl _)) ?_
      | refine Stays.keeps (windowTick_keeps (.refl _)) ?_
      | refine Stays.keeps (idleFlow_keeps (.refl _)) ?_
      | refine Stays.keeps (driftTick_keeps (.refl _)) ?_ | apply classify_stays)

theorem takeSecond_stays {s0 s : State} (h : Stays s0 s) : Stays s0 (takeSecond s) := by
  fun_cases takeSecond <;>
    repeat with_reducible (first
      | exact h | apply clockOn_stays | apply deliverTick_stays | apply Stays.setCm)

theorem passCheck_stays {s0 s : State} (h : Stays s0 s) : Stays s0 (passCheck s) := by
  fun_cases passCheck <;>
    repeat with_reducible (first
      | exact h | refine Stays.keeps (enterIdle_keeps (.refl _)) ?_
      | refine Stays.keeps (recordCheck_keeps (.refl _)) ?_)

theorem stallOver_stays {s0 s : State} (h : Stays s0 s) : Stays s0 (stallOver s) := by
  fun_cases stallOver <;>
    repeat with_reducible (first | exact h | apply Stays.setHs | apply Stays.raise)

theorem graceOver_stays {s0 s : State} (h : Stays s0 s) : Stays s0 (graceOver s) := by
  fun_cases graceOver <;>
    repeat with_reducible (first
      | exact h | refine Stays.keeps (testHead_keeps (.refl _)) ?_ | apply Stays.setDib)

/-! ## The store -/

theorem eraseOver_stays {s0 s : State} {sec : Nat} (h : Stays s0 s) :
    Stays s0 (eraseOver sec s) := by
  unfold eraseOver
  have k : ∀ {x : Rws}, x.store = eraseSector s.rws.store sec →
      x.sectors.length = s.rws.sectors.length → Stays s0 (s.setRws x) := fun e e' =>
    h.setRws (fun hs => by rw [e]; exact storeWf_eraseSector hs sec) e'
  exact .ite (writerGoesOn_stays (.keeps (recoverStart_keeps (.refl _)) (k rfl (by simp))))
    (k rfl (by simp))

theorem blockOver_stays {s0 s : State} (h : Stays s0 s) : Stays s0 (blockOver s) := by
  unfold blockOver
  have k : ∀ {x : Rws}, x.store = (blockDone s.rws).store →
      x.sectors = (blockDone s.rws).sectors → Stays s0 (s.setRws x) := fun e e' =>
    h.setRws (fun hs => by rw [e]; exact storeWf_blockDone hs) (by rw [e']; simp)
  exact .ite (.ite (freedPlace_stays (k (by simp) (by simp))) (k (by simp) (by simp)))
    (k (by simp) (by simp))

theorem voidOver_stays {s0 s : State} {why : VoidFor} (h : Stays s0 s) :
    Stays s0 (voidOver why s) := by
  unfold voidOver
  have k : Stays s0 (s.setRws (voidBlock s.rws)) := h.setRws storeWf_voidBlock (by simp)
  refine writerGoesOn_stays ?_
  split
  · exact .keeps (afterFailure_keeps (.refl _)) k
  · exact k.setRws (by intro hs; rw [placeWrite_store]; exact hs) (by simp)

theorem raiseWeak_stays {s0 s : State} {weak} (h : Stays s0 s) : Stays s0 (raiseWeak weak s) := by
  fun_cases raiseWeak <;> repeat with_reducible (first | exact h | apply Stays.raise)

theorem verifyOver_stays {s0 s : State} {cells : List CellRead} (h : Stays s0 s) :
    Stays s0 (verifyOver cells s) := by
  unfold verifyOver
  rcases e : verifyRead cells s.rws with ⟨r, step⟩
  have hw : s.storeOk → storeWf r.store = true := fun hs => by
    simpa [e] using storeWf_verifyRead hs cells
  have hl : r.sectors.length = s.rws.sectors.length := by
    have := verifyRead_sectors s.rws cells
    rw [e] at this
    exact congrArg List.length this
  have k : Stays s0 (s.setRws r) := h.setRws hw hl
  cases step with
  | more => exact k
  | fail => exact k.setRws id rfl
  | pass weak =>
    refine writerGoesOn_stays ((raiseWeak_stays k).setRws ?_ ?_)
    · intro hs; rw [verifyPassed_store]; exact hs
    · simp

theorem scanOver_stays {s0 s : State} {cells : List (Nat × CellRead)} (h : Stays s0 s) :
    Stays s0 (scanOver cells s) := by
  refine storeReady_stays (h.trans ⟨rfl, rfl, rfl, rfl, fun hs => ?_, id, fun t => ?_⟩)
  · exact storeWf_scanEnd (storeWf_foldl (fun _ _ hl => storeWf_ageBlock hl _ _) _ hs)
  · exact ⟨t.1, t.2.1, t.2.2.1, t.2.2.2.1, scanEnd_sectors_length _, t.2.2.2.2.2⟩

end Sys2Proof.Machine
end

