-- ==== Sys2Proof/Laws/Link.lean ====
section
/-! SUPPORT. What one step of the link does: the end of a step with nothing handed on, an event while the
part is not held in reset, and a request that is taken at once (R179, R180). -/

namespace Sys2Proof.Machine

section
variable {s t : State}

/-- With nothing handed on, the end of a step takes nothing (log 7). -/
theorem settle_of_nil (h : s.reports = []) : settle s = s := by
  unfold settle
  show settleWith (99 + 1) s = s
  rw [settleWith]
  split
  · rfl
  · rename_i r rest e; rw [h] at e; cases e

/-- With one report handed on whose taking hands on nothing, it is taken. -/
theorem settle_of_one {r : Report} (h : s.reports = [r]) (g : (takeReport r (s.setReports [])).reports = []) :
    settle s = takeReport r (s.setReports []) := by
  unfold settle
  show settleWith (98 + 1 + 1) s = _
  rw [settleWith, h]
  simp only []
  rw [settleWith, g]

theorem finish_of_nil (h : s.reports = []) : finish s = lcService s := by
  unfold finish; rw [settle_of_nil h]

/-- In HUNTING the transmitter sends nothing (R176). -/
theorem lcService_of_hunting (h : s.lc.locked = false) : lcService s = s := by
  simp [lcService, h]

/-- A frame goes out to its end (R180). -/
theorem lcService_of_tx {x : TxFrame} (h : s.lc.tx = some x) : lcService s = s := by
  simp [lcService, h]

/-- A reply that is built goes out when the transmitter is free (R180). -/
theorem lcService_of_built {x : TxFrame} (h : s.lc.locked = true) (h1 : s.lc.tx = none)
    (h2 : s.lc.built = some x) :
    lcService s = s.setLc { s.lc with tx := some x, built := none } := by
  simp [lcService, h, h1, h2]

theorem whenOn_of_on {dt : Nat} {f : State → State} (h : s.tps.phase ≠ .off) :
    whenOn dt s f = f (s.elapse dt) := by
  simp [whenOn, h]

theorem event_of_on {dt : Nat} {f : State → State} (h : s.tps.phase ≠ .off) :
    event dt f s = finish (f (s.elapse dt)) := whenOn_of_on h

/-! While the part is not held in reset, time passes in every block that has a timer (log 2). -/

theorem elapse_of_on {dt : Nat} (h : s.tps.phase ≠ .off) :
    s.elapse dt =
      { s with
        sfe := s.sfe.elapse dt
        cm := s.cm.elapse dt
        aha := s.aha.elapse dt
        hs := s.hs.elapse dt
        rws := s.rws.elapse dt
        lc := s.lc.elapse dt } := by
  simp [State.elapse, h]

theorem elapse_lc_of_on {dt : Nat} (h : s.tps.phase ≠ .off) : (s.elapse dt).lc = s.lc.elapse dt := by
  rw [elapse_of_on h]
theorem elapse_sfe_of_on {dt : Nat} (h : s.tps.phase ≠ .off) :
    (s.elapse dt).sfe = s.sfe.elapse dt := by rw [elapse_of_on h]
theorem elapse_cm_of_on {dt : Nat} (h : s.tps.phase ≠ .off) : (s.elapse dt).cm = s.cm.elapse dt := by
  rw [elapse_of_on h]
theorem elapse_aha_of_on {dt : Nat} (h : s.tps.phase ≠ .off) :
    (s.elapse dt).aha = s.aha.elapse dt := by rw [elapse_of_on h]
theorem elapse_hs_of_on {dt : Nat} (h : s.tps.phase ≠ .off) : (s.elapse dt).hs = s.hs.elapse dt := by
  rw [elapse_of_on h]
theorem elapse_rws_of_on {dt : Nat} (h : s.tps.phase ≠ .off) :
    (s.elapse dt).rws = s.rws.elapse dt := by rw [elapse_of_on h]

/-! The state in which a request is dealt with: what the passing of time leaves, and the block timers that it
lowers. -/

@[simp] theorem heard_rrc {dt : Nat} : (s.heard dt).rrc = s.rrc := by simp [State.heard]
@[simp] theorem heard_dib {dt : Nat} : (s.heard dt).dib = s.dib := by simp [State.heard]
@[simp] theorem heard_bu {dt : Nat} : (s.heard dt).bu = s.bu := by simp [State.heard]
@[simp] theorem heard_tps {dt : Nat} : (s.heard dt).tps = s.tps := by simp [State.heard]
@[simp] theorem heard_params {dt : Nat} : (s.heard dt).params = s.params := by simp [State.heard]
@[simp] theorem heard_pending {dt : Nat} : (s.heard dt).pending = s.pending := by simp [State.heard]
@[simp] theorem heard_reports {dt : Nat} : (s.heard dt).reports = s.reports := by simp [State.heard]
@[simp] theorem heard_now {dt : Nat} : (s.heard dt).now = s.tps.clock := by simp [State.now]
theorem heard_sfe {dt : Nat} (h : s.tps.phase ≠ .off) : (s.heard dt).sfe = s.sfe.elapse dt := by
  simp [State.heard, elapse_sfe_of_on h]
theorem heard_cm {dt : Nat} (h : s.tps.phase ≠ .off) : (s.heard dt).cm = s.cm.elapse dt := by
  simp [State.heard, elapse_cm_of_on h]
theorem heard_aha {dt : Nat} (h : s.tps.phase ≠ .off) : (s.heard dt).aha = s.aha.elapse dt := by
  simp [State.heard, elapse_aha_of_on h]
theorem heard_hs {dt : Nat} (h : s.tps.phase ≠ .off) : (s.heard dt).hs = s.hs.elapse dt := by
  simp [State.heard, elapse_hs_of_on h]
theorem heard_rws {dt : Nat} (h : s.tps.phase ≠ .off) : (s.heard dt).rws = s.rws.elapse dt := by
  simp [State.heard, elapse_rws_of_on h]
theorem heard_free {dt : Nat} (h : s.lc.free) : (s.heard dt).lc.free := by simpa [State.heard] using h

/-- A request that arrives while the link is free is dealt with at once (R179, R180). -/
theorem requestRow_of_free {dt : Nat} {tag : Byte} {r : Request} (h : s.tps.phase ≠ .off)
    (hl : s.lc.free) :
    requestRow dt tag r s = finish (serve (encodeRequest r).1 tag (.ok r) (s.heard dt)) := by
  obtain ⟨h1, h2, h3, h4, h5, h6⟩ := hl
  simp [requestRow, whenOn_of_on h, frameIn, requestFrame, State.heard, arrives, Lc.mayTake, h1, h2, h3,
    h4, h5, h6]

/-- A request that is taken at once and whose dealing leaves the link free and hands on nothing: its
reply goes out (R180). -/
theorem requestRow_of_deal {dt : Nat} {tag : Byte} {r : Request} {rep : Reply} (h : s.tps.phase ≠ .off)
    (hl : s.lc.free) (e : deal r (s.heard dt) = (t, rep)) (hr : t.reports = []) (ht : t.lc.free) :
    requestRow dt tag r s = t.answering tag r rep := by
  rw [requestRow_of_free h hl]
  obtain ⟨h1, h2, h3, h4, h5, h6⟩ := ht
  simp only [serve, answer, e, h6]
  rw [finish_of_nil (by simpa using hr)]
  simp [lcService, h1, h2, State.answering, ← h3, h6]

/-- A request that is taken at once once start-up has ended, by what its owner does with it, which leaves
the link free and hands on nothing (R180, R195). -/
theorem requestRow_of_own {dt : Nat} {tag : Byte} {r : Request} {rep : Reply} (h : s.ready)
    (e : own r (s.heard dt) = (t, rep)) (hr : t.reports = []) (ht : t.lc.free) :
    requestRow dt tag r s = t.answering tag r rep := by
  refine requestRow_of_deal (by simp [h.1]) h.2.2 ?_ hr ht
  unfold deal
  rw [heard_tps]
  simpa [h.1] using e

/-- A request that its owner answers with no change (R181). -/
theorem requestRow_unchanged {dt : Nat} {tag : Byte} {r : Request} {rep : Reply} (h : s.ready)
    (e : own r (s.heard dt) = (s.heard dt, rep)) :
    requestRow dt tag r s = (s.heard dt).answering tag r rep :=
  requestRow_of_own h e (by simpa using h.2.1) (heard_free h.2.2)

/-- A request that is taken at once, whatever its dealing leaves (R180). -/
theorem requestRow_replying {dt : Nat} {tag : Byte} {r : Request} {rep : Reply} (h : s.tps.phase ≠ .off)
    (hl : s.lc.free) (e : deal r (s.heard dt) = (t, rep)) (ht : t.lc.clearing = false) :
    requestRow dt tag r s = t.replying tag r rep := by
  rw [requestRow_of_free h hl]
  simp only [serve, answer, e, ht, State.replying]
  rfl

/-- A request that is taken at once once start-up has ended, whatever its owner leaves (R180, R195). -/
theorem requestRow_replying_own {dt : Nat} {tag : Byte} {r : Request} {rep : Reply} (h : s.ready)
    (e : own r (s.heard dt) = (t, rep)) (ht : t.lc.clearing = false) :
    requestRow dt tag r s = t.replying tag r rep := by
  refine requestRow_replying (by simp [h.1]) h.2.2 ?_ ht
  unfold deal
  rw [heard_tps]
  simpa [h.1] using e

end

end Sys2Proof.Machine
end

