-- ==== Sys2Proof/Tests/Slice0.lean ====
section
/-! SUPPORT. Tests: the ill-formed terms that the checks of WellFormed refuse, frames written out from 12.1
and 12.3, one or two small steps per family with results taken from the rules, and, for every statement
of Obligations.lean that has hypotheses, states and operands that meet those of each of its clauses, at
the ends of their ranges where they have any. -/

namespace Sys2Proof.Tests

open Sys2Proof Sys2Proof.Machine

set_option Elab.async false

/-! ## States -/

/-- The switches that are on while nothing moves. -/
def atEase : SwitchSet :=
  switchMask .mastLocked ||| switchMask .stopChainHealthy ||| switchMask .armHome ||| switchMask .indexLocked
    ||| switchMask .headConnected ||| switchMask .clampOpen ||| switchMask .diverterOpen

/-- A part that has started and locked, with nothing going on. -/
def calm : State :=
  { State.reset with
    sfe := { Sfe.reset atEase with
      debounced := atEase, acquired := BitVec.allOnes 16, stab := List.replicate 16 none
      acquisitionEnded := true, sampleTimer := some 100 }
    rws := { Rws.reset with scanning := false, accepting := true }
    lc := { Lc.reset with locked := true, silence := some 30000 }
    tps := { Tps.reset with
      phase := .running, inputsReported := true, storeReported := true, valid := true, startEnd := some 0 } }

def serialA : Serial := 0x151E01060208#48
def serialB : Serial := 0x151E01060209#48
def rod (x : Serial) (l : Loc) : Rod := ⟨x, 3000, 2, l, 0, 0, false, 0⟩

/-- Entry 0 in the rack, entry 1 in slot 3. -/
def stocked : State :=
  calm.setRrc { Rrc.reset with
    registry := (Rrc.reset.registry.set 0 (some (rod serialA .rack))).set 1 (some (rod serialB (.slot 3)))
    slots := Rrc.reset.slots.set 3 (.loaded 1) }

/-- Entry 0 in the arm, entry 1 in slot 3, and `n` places of the string. -/
def inArm (n : Nat) : State :=
  calm.setRrc { stocked.rrc with
    registry := stocked.rrc.registry.set 0 (some (rod serialA .arm)), arm := some 0
    string := List.replicate n (1, none) }

def withOp (q : Seq) (o : OpRec) (s : State) : State := s.setHs { s.hs with seq := q, op := some o }
def opAt (st : Stage) : OpRec := ⟨.addRod, 1, 3, st, true, false, .grip, 0, none⟩
def trip : TripRec := ⟨.out, 5, 1, false, 0, none⟩
def onTrip (q : Seq) (s : State) : State := s.setHs { s.hs with seq := q, trip := some trip }
def mon (m : Mon) (s : State) : State := s.setCm { s.cm with mon := m }

def tariff : Tariff := ⟨1, 0, [(0, 9500), (500, 11000)], List.replicate 10 42000, [⟨7, 0, 1850⟩]⟩
def tariffWire : TariffWire :=
  { id := 1, name := 0, bandCount := 2, itemSet := 0x40#16, rates := List.replicate 10 42000#24
    bands := [(0, 9500), (1000000, 10000000)], items := [(0, 1850)] }

def interval : Interval :=
  ⟨12, 3, 5000, 1000, 6000, 7, 0, 0, 0, none, 0, 0, [], 0, false, false, false, false, false, none, none,
    none, false⟩
def entry (n : Nat) (flush : Bool) : Entry :=
  ⟨{ interval with number := n }, 5000, 7, none, 0, 0, .awaiting, false, false, flush⟩

/-- A job in a state, with its tariff, an open interval 3 from 5,000 mm, and the mark at `hwm`. -/
def withJob (st : JobSt) (hwm : Nat) : State :=
  { calm with
    bu := { Bu.reset with
      jobSt := st, job := some ⟨12, 1, 5000, 7, none⟩, tariffs := [some tariff, none, none, none]
      totals := .zero 2, since := .zero 2, sinceFrom := some 7 }
    dib := { Dib.reset with jobNo := some 12, openIv := some interval, hwm := hwm, jobStart := 5000 } }

def ticket (n : Nat) (seq : Option Nat) : Ticket := ⟨12, n, .interim, 1, 7, 8, [], 0, false, seq⟩
def withTickets (l : List Ticket) (s : State) : State := s.setBu { s.bu with tickets := l }

def jog (c : Client) : Req := { jogReq .clamp .first 300 with client := c, left := some 200 }
def granted (r : Req) (s : State) : State := s.setAha ⟨some r, [], [], some (r.fn, r.dir)⟩

/-- A frame of a sort is going out, and frames wait. -/
def sending (what : TxWhat) (rx : List Frame) (s : State) : State :=
  s.setLc { s.lc with tx := some ⟨what, ⟨0x81#8, 1, [0, 0]⟩⟩, rx := rx }

def record : Record := ⟨.interval, 40, 12, 2, 5, List.replicate 20 7#8, false, some 3⟩
def write (src : Source) (done attempts : Nat) (v : Option VoidFor) : Write :=
  ⟨src, attempts, 10, done, v, none, 0, 0, []⟩

/-- The writer in a state with a write of `record` in hand. -/
def writing (w : Write) (st : WState) (ms : Nat) : State :=
  calm.setRws { calm.rws with
    queue := if w.src = .queue then [record] else [], slot := if w.src = .slot then some record else none
    write := some w, wst := st, timer := some ms }

/-- What a command's next state shows, or false where it gives none. -/
def after (c : Instr) (s : State) (p : State → Bool) : Bool :=
  match exec c s with
  | .next t => p t
  | .fault _ => false
  | .refused _ => false

/-- The status and reason bytes of the reply that goes out. -/
def reply (t : State) : Option (List Nat) := t.lc.tx.map (fun x => (x.frame.payload.take 2).map BitVec.toNat)

/-! ## Ill-formed terms -/

theorem test_refuses_ten_rates : tariffWf { tariffWire with rates := List.replicate 9 0 } = false := by decide +kernel
theorem test_refuses_band_count : tariffWf { tariffWire with bandCount := 3 } = false := by decide +kernel
theorem test_refuses_item_set : tariffWf { tariffWire with itemSet := 0x41#16 } = false := by decide +kernel
theorem test_refuses_long_tariff :
    tariffWf { tariffWire with bandCount := 33, bands := List.replicate 33 (0, 0) } = false := by decide +kernel
theorem test_accepts_tariff : (Instr.writeTariff 0 1 tariffWire).wellFormed = true := by decide +kernel
theorem test_refuses_known_kind : (Instr.unknownKindRequest 0 1 0x2F#8 []).wellFormed = false := by decide +kernel
theorem test_refuses_long_payload :
    (Instr.unknownKindRequest 0 1 0x30#8 (List.replicate 241 0)).wellFormed = false := by decide +kernel
theorem test_refuses_long_frame :
    (Instr.frameReceived 0 1 1 (List.replicate 241 0)).wellFormed = false := by decide +kernel
theorem test_refuses_pit_reading : (Instr.analogueSample 0 11001 0 0).wellFormed = false := by decide +kernel
theorem test_refuses_pressure_reading : (Instr.analogueSample 0 0 11001 0).wellFormed = false := by decide +kernel
theorem test_refuses_torque_reading : (Instr.analogueSample 0 0 0 11001).wellFormed = false := by decide +kernel
theorem test_refuses_cell : (Instr.verifyBlockRead 0 [⟨64, 0, 0⟩]).wellFormed = false := by decide +kernel
theorem test_refuses_scan_block : (Instr.coldStartScanEnd 0 [(8192, ⟨0, 0, 0⟩)]).wellFormed = false := by
  decide +kernel
theorem test_refuses_scan_cell : (Instr.coldStartScanEnd 0 [(0, ⟨64, 0, 0⟩)]).wellFormed = false := by decide +kernel
theorem test_refuses_seconds : (Instr.powerUp 0 4294967296 true).wellFormed = false := by decide +kernel

/-! ## Frames written out from 12.1 to 12.3 -/

/-- The check value of "123456789" that R178 names. -/
theorem test_crc : crc [0x31, 0x32, 0x33, 0x34, 0x35, 0x36, 0x37, 0x38, 0x39] = 0x29B1#16 := by decide +kernel
theorem test_frame_set_parameter : decodeRequest 0x02 [0x18, 0xFF, 0xFF, 0xFF, 0xFE]
    = .ok (.setParameter 24 0xFFFFFFFE#32) := rfl
theorem test_frame_set_watch : decodeRequest 0x08 [0x80, 0x01, 0x00, 0x01]
    = .ok (.setWatch 0x8001#16 0x0001#16) := rfl
theorem test_frame_set_pump : decodeRequest 0x0A [2, 0x1F, 0x40, 0x03, 0xB6]
    = .ok (.setPump 2 8000 950) := rfl
theorem test_frame_register_rod : decodeRequest 0x11 [0x15, 0x1E, 1, 6, 2, 8, 0x0B, 0xB8, 2]
    = .ok (.registerRod serialA 3000 2) := rfl
theorem test_frame_manual_move : decodeRequest 0x1D [4, 2, 0x01, 0xF4]
    = .ok (.manualMove 4 2 500) := rfl
theorem test_frame_annotate : decodeRequest 0x20 [0x01, 0x02, 3, 0x04, 0x05, 6, 9]
    = .ok (.annotate 0x0102#16 3 0x0405#16 6 9) := rfl
theorem test_frame_read_log : decodeRequest 0x22 [0, 0, 1, 0, 2] = .ok (.readLog 256 2) := rfl
theorem test_frame_open_job : decodeRequest 0x25 [0x0F, 0x42, 0x3F, 4, 0xFF, 0xFF, 0xFF, 0xFF]
    = .ok (.openJob 999999 4 0xFFFFFFFF#32) := rfl
theorem test_frame_start_trip : decodeRequest 0x19 [1, 128] = .ok (.startTrip 1 128) := rfl
theorem test_no_word_spells_a_command : decodeTableWord 8 1 = none := rfl

/-! ## Hypotheses that are met -/

theorem witness_StepRunsTheFrontCommand : State.reset.pending = [] := rfl

theorem witness_NoCommandTouchesTheQueue :
    after (.secondTick 1000) (calm.setPending [.resume 0 1]) (fun t => t.pending == [.resume 0 1]) = true := by
  decide +kernel

theorem witness_EveryStepKeepsTheStoreFormAndTheTables : calm.storeOk ∧ calm.tablesOk
    ∧ (∃ t, step (calm.setPending [.secondTick 1000]) = .next t) :=
  ⟨rfl, ⟨rfl, rfl, rfl, rfl, rfl, rfl, rfl⟩, ⟨_, rfl⟩⟩

theorem witness_EveryStepKeepsTheArbiterOrder : (granted (jog .manual) calm).ahaOk
    ∧ (∃ t, step ((granted (jog .manual) calm).setPending [.motionTimeout 200]) = .next t) :=
  ⟨rfl, ⟨_, rfl⟩⟩

theorem witness_RigEventsLeaveSettingsAlone : (Instr.secondTick 1000).ofRig = true
    ∧ (∃ t, exec (.secondTick 1000) calm = .next t) := ⟨rfl, ⟨_, rfl⟩⟩

theorem witness_RequestsReadBackFromTheirFrames :
    requestWf (.writeTariff tariffWire) = true ∧ requestWf (.addMaterial 16 9999) = true := by decide +kernel

theorem witness_FramesAreReadOrRefused : calm.listens
    ∧ decodeRequest 0x14 [39] = .ok (.unloadSlot 39) ∧ (List.replicate 240 0#8).length ≤ 240
    ∧ unknownKind 0x00 = true ∧ unknownKind 0x01 = false ∧ unknownKind 0x2F = false ∧ unknownKind 0x30 = true
    ∧ decodeRequest 0x2F [] = .error .badLength :=
  ⟨by decide +kernel, rfl, by decide +kernel, rfl, rfl, rfl, rfl, rfl⟩

theorem witness_RequestsArriveAsTheirFrames :
    (Instr.startTrip 5 1 2 3).request = some (5, 1, .startTrip 2 3) ∧ requestWf (.startTrip 2 3) = true
    ∧ (∀ l ∈ [[requestFrame 1 .abort], [requestFrame 1 .abort, requestFrame 2 .resume]],
      (sending .reply l calm).awake ∧ (sending .reply l calm).lc.locked = true
        ∧ (sending .reply l calm).lc.clearing = false
        ∧ (sending .reply l calm).lc.tx = some ⟨.reply, ⟨0x81#8, 1, [0, 0]⟩⟩
        ∧ (l.length < 2 ∨ 2 ≤ l.length)) := by decide +kernel

/-- Each way in which a request is in hand while a notice frame goes out, and a notice frame with none. -/
theorem witness_requests_while_a_notice_goes_out :
    let b : TxFrame := ⟨.reply, ⟨0x81#8, 1, [0, 0]⟩⟩
    let s := fun l => sending .notice l calm
    let ok := fun u : State => u.awake ∧ u.lc.locked = true ∧ u.lc.tx.map TxFrame.what = some .notice
    ok (s []) ∧ (s []).lc.holdTake = false ∧ (s []).lc.built = none ∧ (s []).lc.clearing = false ∧ (s []).lc.rx = []
    ∧ ok ((s []).setLc { (s []).lc with holdTake := true }) ∧ ok ((s []).setLc { (s []).lc with built := some b })
    ∧ ok ((s []).setLc { (s []).lc with clearing := true })
    ∧ ok (s [requestFrame 1 .abort]) ∧ (s [requestFrame 1 .abort]).lc.rx.length < 2
    ∧ ok (s [requestFrame 1 .abort, requestFrame 2 .resume]) := by decide +kernel

/-- R180: a request taken while a notice frame goes out has its reply wait for that frame to end. -/
theorem test_reply_waits_for_the_notice :
    after (.identify 5 9) (sending .notice [] calm) (fun t => t.lc.tx.map TxFrame.what == some .notice
      && after (.transmitComplete 5) t (fun u => u.lc.tx.map (fun x => (x.what, x.frame.kind, x.frame.tag))
        == some (.reply, 0x81#8, 9#8) && u.lc.built == none)) = true := by decide +kernel

theorem witness_StartUpRefusesBusy : (Instr.startTrip 5 1 2 3).request = some (5, 1, .startTrip 2 3)
    ∧ (calm.setTps { calm.tps with phase := .startUp }).tps.phase = .startUp ∧ calm.reports = []
    ∧ calm.lc.free := by decide +kernel

theorem witness_AfterAFrameTheNextGoesOut :
    let f := requestFrame 1 .abort
    let kind := calm.setLc { calm.lc with notices := calm.lc.notices.set 4 ⟨.waiting, false, none, 1⟩ }
    let ok := fun s : State => s.awake ∧ s.lc.locked = true ∧ s.lc.built = none ∧ s.lc.clearing = false
    ok (sending .clearReply [] calm) ∧ ok (sending .reply [] kind)
    ∧ (sending .reply [] kind).lc.nextKind = some 5
    ∧ ok (sending .notice [f] kind) ∧ ok (sending .reply [f] calm)
    ∧ (sending .reply [f] calm).lc.nextKind = none ∧ ok (sending .notice [] calm)
    ∧ (sending .notice [] calm).lc.nextKind = none ∧ ok (sending .notice [] kind)
    ∧ (sending .notice [] kind).lc.rx = [] ∧ (sending .notice [] kind).lc.nextKind = some 5 := by decide +kernel

/-- A notice frame ends with a reply built, a kind eligible and a frame waiting. -/
theorem witness_a_reply_waits_for_the_notice :
    let kind := calm.setLc { calm.lc with
      notices := calm.lc.notices.set 4 ⟨.waiting, false, none, 1⟩, built := some ⟨.reply, ⟨0x9C#8, 1, [0, 0]⟩⟩ }
    let s := sending .notice [requestFrame 1 .abort] kind
    s.awake ∧ s.lc.locked = true ∧ s.lc.built = some ⟨.reply, ⟨0x9C#8, 1, [0, 0]⟩⟩ ∧ s.lc.nextKind = some 5
    ∧ s.lc.tx = some ⟨.notice, ⟨0x81#8, 1, [0, 0]⟩⟩ := by decide +kernel

theorem witness_HuntingTakesBytes :
    let s := calm.setLc { calm.lc with locked := false, collect := some [], byteTimer := some 51 }
    s.awake ∧ s.lc.locked = false ∧ s.lc.collect = some []
    ∧ (s.setLc { s.lc with collect := none }).lc.collect = none
    ∧ Timer.over (Timer.elapse 50 s.lc.byteTimer) = false ∧ Timer.over (Timer.elapse 51 s.lc.byteTimer) = true
    ∧ collected [0, 9, 7, 0, 0] = .bad ∧ collected [240] = .more ∧ collected [241] = .bad
    ∧ collected ((requestFrame 7 (.unloadSlot 3)).bytes.drop 1) = .frame (requestFrame 7 (.unloadSlot 3)) := by
  decide +kernel

theorem witness_LineTimersAndDroppedFrames :
    let s := calm.setLc { calm.lc with locked := false, collect := some [], byteTimer := some 4 }
    let u := calm.setLc { calm.lc with silence := some 4 }
    s.awake ∧ s.lc.locked = false ∧ s.lc.collect.isSome = true ∧ s.lc.byteTimer = some 4
    ∧ u.awake ∧ u.lc.locked = true ∧ u.lc.clearing = false ∧ u.lc.silence = some 4
    ∧ (sending .reply [] calm).lc.tx.isSome = true := by decide +kernel

theorem witness_ReadsOfTheRigAnswerDone :
    calm.listens ∧ (calm.setTps { calm.tps with phase := .startUp }).listens := by decide +kernel

theorem witness_ReadsOfTheRecordsAnswerDone :
    calm.listens ∧ (calm.setRws { calm.rws with scanning := true }).rws.scanning = true := by decide +kernel

theorem witness_SetParameterStoresAndActs : calm.ready ∧ paramRange 0 = none ∧ paramRange 28 = none
    ∧ paramRange 1 = some ⟨2, 20, 5⟩ ∧ paramRange 27 = some ⟨60, 3600, 600⟩
    ∧ (1#8) ∉ [17#8, 18#8, 19#8, 20#8, 21#8, 24#8] ∧ (27#8) ∉ [17#8, 18#8, 19#8, 20#8, 21#8, 24#8] := by decide +kernel

theorem witness_PresetsActOrAreRefusedState : calm.ready ∧ calm.sfe.enc ≠ .good
    ∧ calm.on .indexLocked = true ∧ calm.bu.jobSt = .noJob := by decide +kernel

theorem witness_PumpAndMeterFiguresAreStored : calm.ready ∧ (0#8) ≠ 1 ∧ (0#8) ≠ 2 ∧ (3#8) ≠ 1 ∧ (3#8) ≠ 2 := by
  decide +kernel

theorem witness_MaskAndAcknowledgement : calm.listens := by decide +kernel

theorem witness_ClearAllAndSetClock :
    let s := calm.setHs { calm.hs with seq := .held }
    let u := calm.setRws { calm.rws with queue := [record] }
    (withJob .closing 5000).ready ∧ (withJob .closing 5000).bu.jobSt ≠ .noJob
    ∧ s.ready ∧ s.bu.jobSt = .noJob ∧ s.hs.seq ≠ .idle
    ∧ u.ready ∧ u.hs.seq = .idle ∧ u.rws.queue ≠ [] ∧ u.rws.exhausted = false
    ∧ calm.ready ∧ calm.bu.jobSt = .noJob ∧ calm.hs.seq = .idle ∧ calm.rws.queue = [] ∧ calm.rws.slot = none
    ∧ calm.bu.outbox = [] ∧ calm.dib.queue = [] ∧ calm.tps.heldRecovery = none := by decide +kernel

theorem witness_SetWatchWritesGroupThree : calm.ready := by decide +kernel

theorem witness_DeclaredVolumesJoinTheWindow :
    (mon .watchEntry calm).ready ∧ (mon .watchEntry calm).cm.mon = .watchEntry
    ∧ calm.ready ∧ calm.cm.mon ≠ .watchEntry
    ∧ (BitVec.ofInt 32 (-2000001)).toInt < -2000000 ∧ (BitVec.ofInt 32 (-2000000)).toInt = -2000000
    ∧ (0#32).toInt = 0 ∧ (BitVec.ofInt 32 2000000).toInt = 2000000
    ∧ 2000000 < (BitVec.ofInt 32 2000001).toInt := by decide +kernel

theorem witness_AcceptLatchClearsALatch :
    let l : Latch := ⟨.balance, 1, -40000⟩
    let s := calm.setCm { calm.cm with lossLatch := some l, gainLatch := some l, fcResult := .passed }
    let u := calm.setCm { calm.cm with fcResult := .passed }
    (0#8) ≠ 1 ∧ (3#8) ≠ 2 ∧ calm.ready ∧ calm.cm.lossLatch = none ∧ s.ready ∧ s.cm.lossLatch ≠ none
    ∧ calm.cm.fcResult ≠ .passed ∧ u.ready ∧ u.cm.mon = .idle ∧ u.cm.fcResult = .passed ∧ u.cm.gainLatch = none
    ∧ s.cm.mon = .idle ∧ s.cm.fcResult = .passed ∧ s.cm.gainLatch ≠ none := by decide +kernel

theorem witness_HoleWatchIsEnteredAndLeft :
    let pit := calm.setSfe { calm.sfe with pit := ⟨.good, some 1200, 0⟩ }
    let high := pit.setSfe { pit.sfe with debounced := atEase ||| switchMask .pitHigh }
    let watched := switchMask .pitHigh ||| switchMask .pitLow ||| switchMask .returnPaddle
    (mon .watching calm).ready ∧ (mon .watching calm).cm.mon ≠ .idle
    ∧ calm.ready ∧ calm.cm.mon = .idle ∧ calm.hs.seq = .idle ∧ calm.sfe.pit.st ≠ .good
    ∧ pit.ready ∧ pit.sfe.pit.st = .good ∧ (pit.heard 5).sfe.debounced &&& watched = 0
    ∧ high.ready ∧ (high.heard 5).sfe.debounced &&& watched ≠ 0
    ∧ (mon .watchEntry calm).ready ∧ (mon .watchEntry calm).cm.mon = .watchEntry
    ∧ (mon .holeWatch calm).ready ∧ (mon .holeWatch calm).cm.mon = .holeWatch := by decide +kernel

theorem witness_RegisterRodFillsAnEntry :
    let full := calm.setRrc { calm.rrc with registry := List.replicate 160 (some (rod serialA .retired)) }
    let again := full.setRrc { full.rrc with retired := [7] }
    calm.ready ∧ serialValid serialB = true ∧ (1500#16).toNat = 1500 ∧ (6100#16).toNat = 6100
    ∧ ¬1500 ≤ (1499#16).toNat ∧ ¬(6101#16).toNat ≤ 6100 ∧ ¬1 ≤ (0#8).toNat ∧ ¬(5#8).toNat ≤ 4
    ∧ stocked.ready ∧ stocked.rrc.find serialA ≠ none ∧ calm.rrc.find serialB = none
    ∧ calm.rrc.registry.findIdx? Option.isNone = some 0
    ∧ full.ready ∧ full.rrc.find serialB = none ∧ none ∉ full.rrc.registry ∧ full.rrc.retired = []
    ∧ again.ready ∧ again.rrc.retired = [7] := by decide +kernel

theorem witness_RetireRodMovesARodFromRackToRetired :
    let kept := stocked.setRrc (stocked.rrc.putSlot 0 (.reserved .loader .receive 0))
    stocked.ready ∧ serialValid serialA = true ∧ calm.rrc.find serialA = none
    ∧ stocked.rrc.find serialB = some 1 ∧ stocked.rrc.rod 1 = some (rod serialB (.slot 3))
    ∧ stocked.rrc.find serialA = some 0 ∧ stocked.rrc.rod 0 = some (rod serialA .rack)
    ∧ kept.ready ∧ .reserved .loader .receive 0 ∈ kept.rrc.slots ∧ kept.rrc.rod 0 = some (rod serialA .rack)
    ∧ .reserved .loader .take 0 ∉ stocked.rrc.slots ∧ .reserved .loader .receive 0 ∉ stocked.rrc.slots := by
  decide +kernel

theorem witness_RoutesAreTheShorterWayRound : (0 + 40 - 20) % 40 ≤ 20 ∧ 20 < (0 + 40 - 19) % 40
    ∧ (19 : Nat) < 40 ∧ (39 : Nat) < 40 := by decide +kernel

theorem witness_TheLoaderReservesAndRequests :
    let busy := stocked.setRrc { stocked.rrc with loader := some ⟨.load, 5, 0, .waiting⟩ }
    let kept := stocked.setRrc (stocked.rrc.putSlot 5 (.reserved .handling .take 0))
    let full := stocked.setRrc { stocked.rrc with slots := List.replicate 40 (.loaded 1) }
    busy.ready ∧ busy.rrc.loader ≠ none ∧ stocked.ready ∧ stocked.rrc.loader = none
    ∧ serialValid 0x251E01060208#48 = false ∧ serialValid 0x151E01060200#48 = false
    ∧ serialValid serialA = true ∧ calm.ready
    ∧ calm.rrc.find serialA = none ∧ stocked.rrc.find serialB = some 1
    ∧ stocked.rrc.rod 1 = some (rod serialB (.slot 3)) ∧ stocked.rrc.find serialA = some 0
    ∧ stocked.rrc.rod 0 = some (rod serialA .rack) ∧ (40#8) ≠ 255 ∧ 40 ≤ (40#8).toNat ∧ (39#8).toNat < 40
    ∧ stocked.rrc.slotAt 3 ≠ .empty ∧ stocked.rrc.slotAt 39 = .empty ∧ full.ready
    ∧ full.rrc.nearest Slot.isEmpty = none ∧ stocked.rrc.nearest Slot.isEmpty = some 0
    ∧ kept.ready ∧ kept.rrc.slotAt 5 = .reserved .handling .take 0 ∧ stocked.rrc.slotAt 3 = .loaded 1 := by
  decide +kernel

theorem witness_PlaceRodRecordsTheRod :
    let other := (inArm 1).setRrc { (inArm 1).rrc with
      registry := (inArm 1).rrc.registry.set 0 (some { rod serialA .arm with cls := 3 }) }
    calm.ready ∧ calm.rrc.arm = none ∧ (inArm 0).ready ∧ (inArm 0).hs.seq = .idle
    ∧ (inArm 0).rrc.arm = some 0 ∧ (inArm 0).rrc.rod 0 = some (rod serialA .arm)
    ∧ 41 < (42#8).toNat ∧ (39#8).toNat < 40 ∧ (inArm 0).rrc.slotAt 3 ≠ .empty ∧ (inArm 0).rrc.slotAt 39 = .empty
    ∧ (inArm 128).ready ∧ 128 ≤ (inArm 128).rrc.string.length ∧ (inArm 127).rrc.string.length < 128
    ∧ other.ready ∧ other.rrc.stringClass = some 2 ∧ other.rrc.rod 0 = some { rod serialA .arm with cls := 3 }
    ∧ (inArm 1).rrc.stringClass = some 2 ∧ (inArm 0).rrc.stringClass = none := by decide +kernel

theorem witness_AnOperationStartsInQuiet :
    let watched := switchMask .mastLocked ||| switchMask .stopChainHealthy
    let m := fun s : State => ((s.heard 5).sfe.debounced ^^^ watched) &&& watched
    let passed := stocked.setCm { stocked.cm with fcResult := .passed }
    let off := stocked.setSfe { stocked.sfe with debounced := 0 }
    (withOp .held (opAt .lift) calm).ready ∧ (withOp .held (opAt .lift) calm).hs.seq ≠ .idle
    ∧ (inArm 0).ready ∧ (inArm 0).hs.seq = .idle ∧ (inArm 0).rrc.arm ≠ none
    ∧ calm.ready ∧ calm.rrc.arm = none ∧ (calm.rrc.choose .addRod none).toOption = none
    ∧ stocked.ready ∧ (stocked.rrc.choose .addRod (some 3)).toOption = some (3, 1) ∧ m stocked = 0
    ∧ quietMet stocked = false ∧ passed.ready ∧ (passed.rrc.choose .addRod none).toOption = some (3, 1) ∧ m passed = 0
    ∧ quietMet passed = true ∧ off.ready ∧ (off.rrc.choose .addRod none).toOption = some (3, 1) ∧ m off ≠ 0 := by
  and_intros <;> decide +kernel

theorem witness_TheSlotChosenFitsTheOperation :
    128 ≤ (inArm 128).rrc.string.length ∧ stocked.rrc.string.length < 128
    ∧ stocked.rrc.slotAt 39 = .empty ∧ (stocked.rrc.putSlot 5 (.reserved .loader .take 0)).slotAt 5
      = .reserved .loader .take 0
    ∧ stocked.rrc.slotAt 3 = .loaded 1 ∧ stocked.rrc.rod 1 = some (rod serialB (.slot 3))
    ∧ calm.rrc.nearest calm.rrc.eligible = none ∧ stocked.rrc.nearest stocked.rrc.eligible = some 3
    ∧ stocked.rrc.string = [] ∧ (inArm 2).rrc.string = [(1, none)] ++ [(1, none)]
    ∧ ({ calm.rrc with slots := List.replicate 40 (.loaded 1) } : Rrc).nearest Slot.isEmpty = none
    ∧ (inArm 2).rrc.nearest Slot.isEmpty = some 0 := by decide +kernel

theorem witness_ATripStartsItsFirstOperation :
    (onTrip .held calm).ready ∧ (onTrip .held calm).hs.seq ≠ .idle
    ∧ (inArm 0).ready ∧ (inArm 0).rrc.arm ≠ none ∧ calm.ready ∧ calm.hs.seq = .idle ∧ calm.rrc.arm = none
    ∧ (0#8) ≠ 1 ∧ (0#8) ≠ 2 ∧ (3#8) ≠ 1 ∧ (3#8) ≠ 2 ∧ calm.rrc.string.length < (1#8).toNat
    ∧ (0#8).toNat < 1 ∧ 128 < (129#8).toNat ∧ (128#8).toNat ≤ 128 - stocked.rrc.string.length
    ∧ (calm.rrc.choose .addRod none).toOption = none ∧ stocked.ready ∧ stocked.rrc.arm = none
    ∧ (stocked.rrc.choose .addRod none).toOption = some (3, 1) := by decide +kernel

theorem witness_StopTripAndResumeMoveTheSequencer :
    let gripped := calm.setSfe { calm.sfe with debounced := atEase ||| switchMask .clampClosed }
    let flying := withOp .faulted (opAt .index) (onTrip .faulted gripped)
    let off := flying.setSfe { flying.sfe with debounced := 0 }
    calm.ready ∧ calm.hs.seq = .idle ∧ (onTrip .interrupted calm).ready
    ∧ (onTrip .interrupted calm).hs.seq = .interrupted ∧ (withOp .held (opAt .index) calm).ready
    ∧ (withOp .held (opAt .index) calm).hs.tripActive = false
    ∧ (onTrip .held calm).ready ∧ (onTrip .held calm).hs.trip = some trip ∧ trip.ended = none
    ∧ (onTrip .held calm).hs.op = none ∧ flying.ready ∧ flying.hs.trip = some trip ∧ flying.hs.op = some (opAt .index)
    ∧ (flying.heard 5).on .mastLocked = true ∧ (flying.heard 5).on .stopChainHealthy = true
    ∧ (flying.heard 5).on .clampClosed = true ∧ (flying.heard 5).on .armHome = true
    ∧ flying.cm.pump1.st = .stopped ∧ flying.cm.pump2.st = .stopped
    ∧ off.ready ∧ (off.heard 5).on .mastLocked = false ∧ off.hs.op = some (opAt .index) := by
  and_intros <;> decide +kernel

theorem witness_AbortEndsTheOperation : calm.ready ∧ calm.ahaOk ∧ calm.hs.seq = .idle
    ∧ (onTrip .held calm).ready ∧ (onTrip .held calm).ahaOk ∧ (onTrip .held calm).hs.op = none
    ∧ (onTrip .held calm).hs.trip = some trip
    ∧ (withOp .running (opAt .clamp) (granted (jog .handling) calm)).ready
    ∧ (withOp .running (opAt .clamp) (granted (jog .handling) calm)).ahaOk
    ∧ (withOp .running (opAt .clamp) (granted (jog .handling) calm)).hs.op = some (opAt .clamp) :=
  ⟨by decide +kernel, rfl, rfl, by decide +kernel, rfl, rfl, rfl, by decide +kernel, rfl, rfl⟩

theorem witness_IntervalsAreMarkedAndAnnotated :
    let with_queue := fun l : List Entry =>
      (withJob .opened 5100).setDib { (withJob .opened 5100).dib with queue := l }
    let full := (with_queue (List.replicate 16 (entry 1 false))).setRws { calm.rws with accepting := false }
    calm.ready ∧ calm.bu.jobSt = .noJob ∧ (withJob .closing 5000).ready ∧ (withJob .closing 5000).bu.jobSt = .closing
    ∧ (withJob .suspended 5099).ready ∧ (withJob .suspended 5099).bu.jobSt = .suspended
    ∧ ((withJob .opened 5000).setDib { Dib.reset with openIv := none }).dib.openIv = none
    ∧ (withJob .suspended 5099).dib.openIv = some interval ∧ (withJob .suspended 5099).dib.hwm < interval.top + 100
    ∧ interval.top + 100 ≤ (withJob .opened 5100).dib.hwm
    ∧ (with_queue (List.replicate 15 (entry 1 false))).dib.queue.length < 16
    ∧ (makeRoom (with_queue (List.replicate 15 (entry 1 false)))).2 = true
    ∧ full.ready ∧ 16 ≤ full.dib.queue.length ∧ full.rws.hasPlace = false ∧ (makeRoom full).2 = false
    ∧ (0#16) = 0 ∧ (4#16) ≠ 0 ∧ (withJob .opened 5100).dib.queue = [] ∧ interval.number = (3#16).toNat
    ∧ (8#8).getLsbD 0 = false ∧ (1#8).getLsbD 0 = true ∧ 250 < (251#8).toNat ∧ ¬250 < (250#8).toNat
    ∧ (with_queue [entry 2 true, entry 2 false]).dib.queue = [entry 2 true] ++ entry 2 false :: []
    ∧ (entry 2 true).flush = true ∧ (entry 2 false).iv.number = (2#16).toNat := by decide +kernel

theorem witness_WriteTariffReplacesAPlace :
    let good := fun t : Tariff => 1 ≤ t.bands.length ∧ t.bands.length ≤ 8 ∧ (t.bands.map Prod.fst).head? = some 0
      ∧ (t.bands.map Prod.fst).Pairwise (· < ·) ∧ (∀ b ∈ t.bands, b.1 ≤ 1000000 ∧ b.2 ≤ 10000000)
      ∧ (∀ x ∈ t.rates, x ≤ 10000000) ∧ (∀ x ∈ t.items, x.price ≤ 10000000)
    calm.ready ∧ (wireTariff { tariffWire with id := 0 }).id < 1 ∧ 4 < (wireTariff { tariffWire with id := 5 }).id
    ∧ (withJob .closing 5000).ready ∧ (withJob .closing 5000).bu.job = some ⟨12, 1, 5000, 7, none⟩
    ∧ (wireTariff tariffWire).id = 1 ∧ calm.bu.jobSt = .noJob ∧ good (wireTariff tariffWire)
    ∧ ¬good (wireTariff { tariffWire with bands := [(0, 9500), (1000001, 0)] }) := by decide +kernel

theorem witness_OpenJobBeginsAJob :
    let s := calm.setBu { calm.bu with tariffs := [some tariff, none, none, none] }
    let full := withTickets (List.replicate 8 (ticket 1 none)) s
    let waits := s.setBu { s.bu with outbox := [.jobOpened 11 []] }
    (withJob .closing 5000).ready ∧ (withJob .closing 5000).bu.jobSt ≠ .noJob
    ∧ s.ready ∧ s.bu.jobSt = .noJob ∧ ¬1 ≤ (0#24).toNat ∧ ¬(1000000#24).toNat ≤ 999999 ∧ (999999#24).toNat = 999999
    ∧ ¬(1000001#32).toNat ≤ 1000000 ∧ (1000000#32).toNat ≤ 1000000 ∧ ¬(5#8).toNat ≤ 4
    ∧ s.bu.tariffAt 4 = none ∧ s.bu.tariffAt 1 = some tariff ∧ full.ready ∧ full.bu.listFree = false
    ∧ waits.ready ∧ waits.bu.listFree = true ∧ .jobOpened 11 [] ∈ waits.bu.outbox
    ∧ s.bu.listFree = true ∧ s.bu.outbox = [] ∧ s.dib.depth ≤ (0#32).toNat := by decide +kernel

theorem witness_HoldReleaseAndBreakdownMoveTheJob :
    calm.ready ∧ (withJob .opened 5000).ready ∧ (withJob .suspended 5000).ready ∧ (withJob .closing 5000).ready := by
  decide +kernel

theorem witness_MaterialJoinsBothSets :
    let s := withJob .opened 5000
    let top := fun n : Nat =>
      s.setBu { s.bu with totals := { s.bu.totals with mats := List.replicate 16 n } }
    calm.ready ∧ calm.bu.jobSt = .noJob ∧ (withJob .closing 5000).ready ∧ s.ready ∧ s.bu.jobSt = .opened
    ∧ (0#16).toNat < 1 ∧ 9999 < (10000#16).toNat ∧ (9999#16).toNat ≤ 9999 ∧ (0#8).toNat < 1 ∧ 16 < (17#8).toNat
    ∧ s.bu.jobTariff = some tariff ∧ ⟨7, 0, 1850⟩ ∈ tariff.items ∧ (∀ x ∈ tariff.items, x.code ≠ (16#8).toNat)
    ∧ (top 4294967295).ready ∧ 4294967295 < (top 4294967295).bu.totals.mats.getD ((7#8).toNat - 1) 0 + (1#16).toNat
    ∧ (top 4294967294).bu.totals.mats.getD ((7#8).toNat - 1) 0 + (1#16).toNat ≤ 4294967295 := by decide +kernel

theorem witness_IssueTicketBillsTheSet :
    let s := withJob .suspended 5000
    let full := withTickets (List.replicate 8 (ticket 1 none)) s
    calm.ready ∧ calm.bu.jobSt = .noJob ∧ (withJob .closing 5000).ready ∧ s.ready ∧ s.bu.jobSt = .suspended
    ∧ full.ready ∧ full.bu.listFree = false ∧ s.bu.listFree = true ∧ s.bu.job = some ⟨12, 1, 5000, 7, none⟩
    ∧ s.bu.jobTariff = some tariff := by decide +kernel

theorem witness_CloseJobBillsAndEnds :
    let s := withJob .opened 5000
    let drilled := withJob .opened 5001
    let full := withTickets (List.replicate 8 (ticket 1 none)) s
    let stuck := (drilled.setDib { drilled.dib with queue := List.replicate 16 (entry 1 false) }).setRws
      { calm.rws with accepting := false }
    calm.ready ∧ calm.bu.jobSt = .noJob ∧ (withJob .closing 5000).ready ∧ s.ready ∧ s.bu.jobSt = .opened
    ∧ (s.setDib Dib.reset).dib.openIv = none ∧ s.dib.openIv = some interval ∧ s.dib.hwm ≤ interval.top
    ∧ interval.top < drilled.dib.hwm ∧ drilled.dib.queue.length < 16 ∧ stuck.ready ∧ 16 ≤ stuck.dib.queue.length
    ∧ stuck.rws.hasPlace = false ∧ dibCloseJob stuck = none ∧ (dibCloseJob s).isSome = true
    ∧ s.bu.job = some ⟨12, 1, 5000, 7, none⟩ ∧ full.ready ∧ full.bu.listFree = false
    ∧ (dibCloseJob full).isSome = true ∧ s.bu.listFree = true ∧ s.bu.jobTariff = some tariff := by decide +kernel

theorem witness_CollectTicketFreesItsPlace :
    let s := withTickets [ticket 1 (some 9), ticket 2 none] (withJob .closing 5000)
    let spent := s.setRws { s.rws with exhausted := true }
    let u := s.setBu { s.bu with finalWaiting := true }
    let found := fun n : Nat => s.bu.tickets.find? (fun k => k.number == n)
    s.ready ∧ (1#32) ≠ 0 ∧ (∀ k ∈ s.bu.tickets, k.number ≠ (3#32).toNat) ∧ found 2 = some (ticket 2 none)
    ∧ s.rws.exhausted = false ∧ spent.ready ∧ spent.rws.exhausted = true ∧ found 1 = some (ticket 1 (some 9))
    ∧ s.bu.finalWaiting = false ∧ u.ready ∧ u.bu.jobSt = .closing ∧ u.bu.finalWaiting = true := by decide +kernel

theorem witness_MovesOfThePackAreRequested :
    let held := granted (jog .manual) calm
    let div := granted { divertReq .first true false with left := some 100 } calm
    (withOp .running (opAt .lift) calm).ready ∧ (withOp .running (opAt .lift) calm).hs.seq = .running
    ∧ held.ready ∧ held.aha.stands .manual = true ∧ calm.ready ∧ calm.aha.stands .manual = false
    ∧ Func.ofCode 0 = none ∧ Func.ofCode 6 = none ∧ Dir.ofCode 0 = none ∧ Dir.ofCode 3 = none
    ∧ (99#16).toNat < 100 ∧ 5000 < (5001#16).toNat ∧ Func.ofCode 1 = some .clamp ∧ Func.ofCode 5 = some .diverter
    ∧ Dir.ofCode 1 = some .first ∧ Dir.ofCode 2 = some .second ∧ (100#16).toNat = 100 ∧ (5000#16).toNat ≤ 5000
    ∧ endSwitch .clamp .second = some .clampOpen ∧ (calm.heard 5).on .clampOpen = true
    ∧ endSwitch .clamp .first = some .clampClosed ∧ (calm.heard 5).on .clampClosed = false
    ∧ calm.aha = ⟨none, [], [], none⟩ ∧ div.ready ∧ div.aha.stands .manual = false
    ∧ (div.heard 5).aha.holder.isSome = true ∧ div.aha.stands .wellControl = true
    ∧ calm.aha.stands .wellControl = false ∧ (0#8) ≠ 1 ∧ (3#8) ≠ 2 ∧ (calm.heard 5).on .diverterOpen = true
    ∧ (calm.heard 5).on .diverterClosed = false ∧ calm.aha.holder = none
    ∧ held.aha.stands .wellControl = false ∧ (held.heard 5).aha.holder.isSome = true := by
  and_intros <;> decide +kernel

theorem witness_RawChangesRunTheStabilityTimer :
    let off := calm.setTps { calm.tps with phase := .off }
    let bounced := calm.setSfe { calm.sfe with raw := atEase &&& ~~~switchMask .armHome }
    off.tps.phase = .off ∧ calm.awake ∧ inSet calm.sfe.raw .armHome = true ∧ bounced.awake
    ∧ inSet bounced.sfe.raw .armHome ≠ true ∧ inSet (bounced.elapse 5).sfe.acquired .armHome = true
    ∧ inSet (bounced.elapse 5).sfe.debounced .armHome = true
    ∧ inSet calm.sfe.raw .pitHigh ≠ true ∧ inSet (calm.elapse 5).sfe.debounced .pitHigh ≠ true := by decide +kernel

theorem witness_TakenChangesReachTheirReaders :
    let due := fun (sw : Switch) (on : Bool) => calm.setSfe { calm.sfe with
      raw := putSwitch calm.sfe.raw sw on, stab := calm.sfe.stab.set (switchIndex sw) (some 20) }
    let watched := switchMask .mastLocked
    let g : Group := ⟨watched, watched, 0, false⟩
    let s3 := (due .mastLocked false).setSfe { (due .mastLocked false).sfe with g3 := g }
    let s0 := withOp .waiting (opAt .quiet)
      ((due .mastLocked false).setSfe { (due .mastLocked false).sfe with g0 := g })
    let s1 := granted (jog .manual) (due .clampClosed true)
    let isDue := fun (s : State) (sw : Switch) => inSet (s.elapse 20).sfe.acquired sw = true
      ∧ (s.elapse 20).sfe.stab.getD (switchIndex sw) none = some 0
      ∧ inSet s.sfe.raw sw ≠ inSet (s.elapse 20).sfe.debounced sw
    calm.awake ∧ ¬isDue calm .mastLocked ∧ ¬((s3.elapse 19).sfe.stab.getD 0 none = some 0)
    ∧ (due .pitHigh false).awake ∧ isDue (due .clampOpen false) .clampOpen
    ∧ s3.awake ∧ isDue s3 .mastLocked ∧ inSet s3.sfe.g3.sel .mastLocked = true ∧ inSet s3.sfe.g0.sel .mastLocked = false
    ∧ s3.sfe.g3.mism = 0 ∧ s1.awake ∧ isDue s1 .clampClosed ∧ (s1.elapse 20).aha.holder.isSome = true
    ∧ (jog .manual).target = .jog (some .clampClosed) ∧ inSet s1.sfe.g3.sel .clampClosed = false
    ∧ s0.awake ∧ isDue s0 .mastLocked ∧ inSet s0.sfe.g0.sel .mastLocked = true ∧ s0.sfe.g0.mism = 0
    ∧ inSet s0.sfe.raw .mastLocked = false ∧ s0.hs.op = some (opAt .quiet) ∧ s0.hs.seq = .waiting := by decide +kernel

theorem witness_AcquisitionEndStartsTheInputs :
    let s := (calm.setSfe { calm.sfe with acquisitionEnded := false }).setTps
      { calm.tps with phase := .startUp, storeReported := false }
    let u := s.setTps { s.tps with storeReported := true }
    calm.awake ∧ calm.sfe.acquisitionEnded = true ∧ State.reset.awake
    ∧ (State.reset.elapse 5).sfe.acquired ≠ BitVec.allOnes 16 ∧ s.awake ∧ s.sfe.acquisitionEnded = false
    ∧ (s.elapse 5).sfe.acquired = BitVec.allOnes 16 ∧ s.sfe.g0 = .reset ∧ s.sfe.g1 = .reset ∧ s.sfe.g2 = .reset
    ∧ s.sfe.g3 = .reset ∧ s.tps.phase = .startUp ∧ s.tps.storeReported = false
    ∧ u.awake ∧ u.tps.storeReported = true := by decide +kernel

theorem witness_StrokesRunThePumps :
    let pump := fun (st : PumpSt) (ms : Nat) => calm.setCm
      { calm.cm with pump1 := ⟨st, some 7, none, some ms, 0⟩ }
    State.reset.awake ∧ State.reset.sfe.acquisitionEnded = false
    ∧ (pump .running 3).awake ∧ (pump .running 3).sfe.acquisitionEnded = true
    ∧ (pump .running 3).cm.mon ≠ .watchEntry ∧ ((pump .running 3).elapse 3).cm.pump1.st = .running
    ∧ ((pump .running 3).elapse 3).cm.pump1.last = some 7 ∧ ((pump .running 4).elapse 3).cm.pump1.gap = some 1
    ∧ ((pump .starting 3).elapse 3).cm.pump1.st = .starting ∧ ((pump .running 3).elapse 3).cm.pump1.gap = some 0
    ∧ calm.awake ∧ (calm.elapse 3).cm.pump1.st = .stopped ∧ (calm.elapse 3).cm.pump1.interval = none
    ∧ calm.cm.mon = .idle ∧ (mon .watching calm).awake ∧ (mon .settling (pump .running 3)).awake
    ∧ (mon .settling (pump .running 3)).cm.mon = .settling ∧ (pump .running 3).cm.pump2.st = .stopped := by decide +kernel

theorem witness_PulsesAreCounted :
    let spun := calm.setSfe { calm.sfe with rotTimer := some 3 }
    let at_ := fun (m : Mon) (v : Nat) => calm.setCm { calm.cm with mon := m, fcVol := v, entryVol := v }
    State.reset.awake ∧ State.reset.sfe.acquisitionEnded = false ∧ calm.awake ∧ calm.sfe.acquisitionEnded = true
    ∧ spun.awake ∧ (spun.elapse 3).sfe.rotTimer = some 0 ∧ (spun.elapse 2).sfe.rotTimer = some 1
    ∧ (mon .watching calm).awake ∧ (mon .settling calm).awake ∧ calm.cm.mon = .idle ∧ (mon .holeWatch calm).awake
    ∧ (at_ .flowCheck 19000).awake ∧ 19000 + ((at_ .flowCheck 19000).elapse 3).inForce.k ≤ calm.pFlowAllowance
    ∧ calm.pFlowAllowance < 19001 + ((at_ .flowCheck 19001).elapse 3).inForce.k
    ∧ (at_ .watchEntry 19000).awake ∧ 19000 + ((at_ .watchEntry 19000).elapse 3).inForce.k ≤ calm.pFlowAllowance
    ∧ calm.pFlowAllowance < 19001 + ((at_ .watchEntry 19001).elapse 3).inForce.k := by decide +kernel

theorem witness_EncoderStepsMoveTheHead :
    let head := fun x : Nat => calm.setSfe { calm.sfe with enc := .good, head := some x }
    calm.awake ∧ calm.sfe.enc ≠ .good ∧ (head 7500).awake ∧ (head 7500).sfe.enc = .good
    ∧ (head 7500).sfe.head = some 7500 ∧ (head 7499).sfe.head = some 7499 ∧ (head 0).sfe.head = some 0
    ∧ (head 1).sfe.head = some 1 := by decide +kernel

theorem witness_SamplesMoveTheInputs :
    let good := calm.setSfe { calm.sfe with
      pit := ⟨.good, some 5, 0⟩, press := ⟨.good, some 5, 0⟩, torque := ⟨.good, some 5, 0⟩ }
    calm.awake ∧ (calm.elapse 99).sfe.sampleTimer ≠ some 0 ∧ (calm.elapse 100).sfe.sampleTimer = some 0
    ∧ (good.sfe.pit.sample (goodValue 4000 10200)) = (⟨.good, some 4000, 0⟩, none)
    ∧ (good.sfe.pit.sample (goodValue 4000 199)) = (⟨.faulted, some 5, 0⟩, some true)
    ∧ (good.sfe.press.sample (goodValue 25000 200)) = (⟨.good, some 0, 0⟩, none)
    ∧ (good.sfe.torque.sample (goodValue 30000 10200)) = (⟨.good, some 30000, 0⟩, none)
    ∧ good.cm.mon ≠ .watchEntry ∧ good.awake := by decide +kernel

theorem witness_SecondTicksClassifyAndAccrue :
    let off := calm.setTps { calm.tps with phase := .off }
    let early := calm.setTps { calm.tps with phase := .startUp }
    off.tps.phase = .off ∧ early.tps.phase = .startUp ∧ early.reports = [] ∧ calm.tps.phase = .running
    ∧ (mon .watching calm).tps.phase = .running ∧ (mon .watching calm).reports = []
    ∧ (mon .watching calm).cm.mon ≠ .idle ∧ (mon .watching calm).cm.mon ≠ .holeWatch := by decide +kernel

theorem witness_WindowsCloseIntoTheBalance :
    let win := fun (m : Mon) (k n : Nat) => calm.setCm
      { calm.cm with mon := m, settle := k, win := some ⟨calm.force, n, 0, false, 0, false, 0, 0⟩ }
    calm.awake ∧ calm.cm.win = none
    ∧ (win .idle 0 1).awake ∧ (win .idle 0 1).cm.win.map Window.left = some 1
    ∧ (win .idle 0 0).awake ∧ (win .idle 0 0).cm.win.map Window.left = some 0 ∧ (win .idle 0 0).cm.mon ≠ .settling
    ∧ (win .settling 2 0).awake ∧ 1 < (win .settling 2 0).cm.settle ∧ (win .settling 1 0).awake
    ∧ (win .settling 1 0).cm.settle ≤ 1 ∧ (win .watching 0 0).awake ∧ (win .watching 0 0).cm.mon = .watching := by
  decide +kernel

theorem witness_SuspectWindowsSetTheLatches :
    let at_ := fun (x : Int) (n : Nat) => calm.setCm { calm.cm with sum := x, lossSus := n, gainSus := n }
    let f := calm.force
    0 < f.lossThr ∧ 0 < f.gainThr ∧ 0 < f.m ∧ -(f.lossThr : Int) < (at_ (-39999) 0).cm.sum
    ∧ (at_ 19999 0).cm.sum < f.gainThr ∧ (at_ (-40000) 1).cm.sum ≤ -(f.lossThr : Int)
    ∧ min 10 ((at_ (-40000) 1).cm.lossSus + 1) < f.m ∧ f.m ≤ min 10 ((at_ (-40000) 2).cm.lossSus + 1)
    ∧ calm.cm.lossLatch = none ∧ (f.gainThr : Int) ≤ (at_ 20000 1).cm.sum
    ∧ min 10 ((at_ 20000 1).cm.gainSus + 1) < f.m ∧ f.m ≤ min 10 ((at_ 20000 2).cm.gainSus + 1)
    ∧ calm.cm.gainLatch = none := by decide +kernel

theorem witness_TimersActWhenTheyRunOut :
    let check := calm.setCm { calm.cm with mon := .flowCheck, fcTimer := some 3 }
    let enter := calm.setCm { calm.cm with mon := .watchEntry, capTimer := some 3, capCount := 1, capSum := 900 }
    let moving := granted { jog .handling with left := some 3 } calm
    let whole := { jog .handling with left := some 3, target := .switch .clampClosed }
    let stalled := withOp .waiting (opAt .lift) (calm.setHs { calm.hs with stall := some 3 })
    let due := calm.setDib { calm.dib with queue := [entry 1 false, { entry 2 false with graceDue := true }] }
    check.awake ∧ (check.elapse 2).cm.fcTimer ≠ some 0 ∧ check.cm.mon = .flowCheck
    ∧ (check.elapse 3).cm.fcTimer = some 0 ∧ enter.awake ∧ (enter.elapse 2).cm.capTimer ≠ some 0
    ∧ (enter.elapse 3).cm.capTimer = some 0 ∧ 0 < enter.cm.capCount ∧ moving.awake
    ∧ (moving.elapse 3).aha.holder = some { jog .handling with left := some 0 }
    ∧ (moving.elapse 2).aha.holder = some { jog .handling with left := some 1 } ∧ (jog .handling).lockWait = none
    ∧ (withOp .running (opAt .clamp) (granted whole calm)).awake
    ∧ ((withOp .running (opAt .clamp) (granted whole calm)).elapse 3).aha.holder = some { whole with left := some 0 }
    ∧ (granted whole calm).aha.stack = [] ∧ (granted whole calm).aha.waiting = [] ∧ whole.fn ≠ .index
    ∧ (withOp .running (opAt .clamp) (granted whole calm)).hs.op = some (opAt .clamp)
    ∧ stalled.awake ∧ (stalled.elapse 2).hs.stall ≠ some 0 ∧ (stalled.elapse 3).hs.stall = some 0
    ∧ stalled.hs.op = some (opAt .lift) ∧ due.awake
    ∧ due.dib.queue = [entry 1 false] ++ { entry 2 false with graceDue := true } :: []
    ∧ (entry 1 false).graceDue = false := by decide +kernel

theorem witness_TheWriterErasesAndPrograms :
    let erasing := writing (write .queue 0 0 none) (.erasing 31) 3
    let first := writing (write .queue 0 0 none) .programming 3
    let last := writing (write .queue 1 0 none) .programming 3
    let again := writing (write .slot 1 0 none) .programming 3
    calm.awake ∧ calm.rws.timer ≠ some 0 ∧ erasing.awake ∧ erasing.rws.wst = .erasing 31
    ∧ (erasing.elapse 3).rws.timer = some 0 ∧ erasing.rws.recovering ≠ some .clearing
    ∧ (erasing.elapse 2).rws.timer ≠ some 0 ∧ first.awake ∧ first.rws.wst = .programming
    ∧ (first.elapse 3).rws.timer = some 0 ∧ first.rws.write = some (write .queue 0 0 none)
    ∧ first.rws.inHand = some record ∧ 0 + 1 < record.blocks ∧ last.awake ∧ record.blocks ≤ 1 + 1
    ∧ last.rws.queue = record :: [] ∧ again.awake ∧ again.rws.inHand = some record := by decide +kernel

theorem witness_TheWriterVerifiesAndRewrites :
    let w := write .slot 2 0 none
    let sound := programBlock (programBlock [] 10 (record.pattern 0)) 11 (record.pattern 1)
    let reading := fun (store : List Block) (n : Nat) => (writing w .verifying 3).setRws
      { (writing w .verifying 3).rws with
        store := store
        write := some { w with
          readBlocks := n, readData := if n = 0 then [] else (readRows (blockAt store 10)).flatMap RowRead.data } }
    let rows := fun (store : List Block) (n : Nat) => readRows (blockAt (ageBlock store (10 + n) []) (10 + n))
    let failing : List CellRead := [⟨0, 0xA4, 0xA4⟩, ⟨1, 0xA4, 0xA4⟩, ⟨2, 0xA4, 0xA4⟩]
    (reading sound 0).awake ∧ ((reading sound 0).elapse 3).rws.timer = some 0
    ∧ (reading sound 0).rws.slot = some record ∧ (reading sound 0).rws.wst = .verifying
    ∧ (∀ x ∈ rows sound 0, x.isFailed = false) ∧ 0 + 1 < record.blocks
    ∧ (∃ x ∈ readRows (blockAt (ageBlock sound 10 failing) 10), x.isFailed = true)
    ∧ (reading sound 1).awake ∧ (∀ x ∈ rows sound 1, x.isFailed = false) ∧ record.blocks ≤ 1 + 1
    ∧ sumMatches ((rows sound 0 ++ rows sound 1).flatMap RowRead.data) = true
    ∧ ((rows sound 0 ++ rows sound 1).flatMap RowRead.data).head? = some 0x5A#8
    ∧ ((rows sound 1).flatMap RowRead.data).head? ≠ some 0x5A#8
    ∧ (writing (write .slot 2 1 (some .failure)) .programming 0).awake
    ∧ (writing (write .slot 2 1 (some .failure)) .programming 0).rws.slot = some record
    ∧ (write .slot 2 1 (some .failure)).attempts < 2 ∧ 2 ≤ (write .slot 2 2 (some .failure)).attempts
    ∧ record.kind ≠ .lost ∧ (writing (write .slot 2 0 (some .cutShort)) .programming 0).awake := by
  and_intros <;> decide +kernel

theorem witness_TheScanRebuildsTheIndex :
    calm.awake ∧ calm.rws.scanning = false ∧ State.reset.awake ∧ State.reset.rws.scanning = true
    ∧ State.reset.rws.store = [] ∧ State.reset.rws.halfErased = [] := by decide +kernel

theorem witness_TheWarningHoldsEverythingAndResetActsOnNothing :
    let off := calm.setTps { calm.tps with phase := .off }
    let s := writing (write .queue 1 0 none) .programming 3
    calm.tps.phase ≠ .off ∧ calm.rws.wst = .idle
    ∧ (writing (write .queue 0 0 none) (.erasing 3) 3).rws.wst = .erasing 3
    ∧ (writing (write .slot 2 0 none) .verifying 3).rws.write = some (write .slot 2 0 none)
    ∧ (writing (write .slot 2 0 (some .failure)) .programming 3).rws.write = some (write .slot 2 0 (some .failure))
    ∧ s.tps.phase ≠ .off ∧ s.rws.write = some (write .queue 1 0 none) ∧ s.rws.inHand = some record
    ∧ record.blocks ≤ 1 + 1 ∧ 0 + 1 < record.blocks ∧ s.rws.queue = record :: [] ∧ off.tps.phase = .off := by decide +kernel

theorem witness_PowerReturnsColdOrWarm :
    let off := fun v : Bool => calm.setTps { calm.tps with phase := .off, valid := v }
    calm.tps.phase ≠ .off ∧ (off false).tps.phase = .off ∧ (off false).tps.valid = false
    ∧ (off true).tps.phase = .off ∧ (off true).tps.valid = true := by decide +kernel

/-! ## Witnesses of the clauses that name operations -/

/-- A switch whose change is to be taken after 20 ms. -/
def changing (sw : Switch) (on : Bool) (s : State) : State := s.setSfe
  { s.sfe with raw := putSwitch s.sfe.raw sw on, stab := s.sfe.stab.set (switchIndex sw) (some 20) }

/-- The change is due 20 ms later, and no group selects the switch. -/
def due (sw : Switch) (on : Bool) (s : State) : Bool :=
  let f := (s.elapse 20).sfe
  s.tps.phase == .running && s.reports.isEmpty && inSet f.acquired sw && f.stab.getD (switchIndex sw) none == some 0
    && inSet s.sfe.raw sw == on && inSet f.debounced sw != on
    && !inSet s.sfe.g0.sel sw && !inSet s.sfe.g1.sel sw && !inSet s.sfe.g2.sel sw && !inSet s.sfe.g3.sel sw

def lit (x : SwitchSet) (s : State) : State := s.setSfe { s.sfe with debounced := s.sfe.debounced ||| x }
def dark (x : SwitchSet) (s : State) : State := s.setSfe { s.sfe with debounced := s.sfe.debounced &&& ~~~x }
def opOf (op : Op) (st : Stage) : OpRec := ⟨op, 1, 3, st, true, true, .release, 0, none⟩
def toCentre : Req := { Req.new .handling .arm .first (.switch .armAtCentre) with left := some 500 }
def toSlot (c : Client) (wait : Option (Option Nat)) : Req :=
  { Req.new c .index .first (.slot 1) with left := some 500, route := some (.ascending, 1), lockWait := wait }
def indexJog : Req := { Req.new .manual .index .first (.jog none) with left := some 500, jogMs := 800, ownStep := true }
def latched : State := calm.setCm { calm.cm with gainLatch := some ⟨.balance, 0, 0⟩, lossLatch := some ⟨.balance, 0, 0⟩ }

theorem witness_stage_ends :
    (withOp .waiting (opAt .quiet) calm).reports = [] ∧ (opAt .quiet).begun = true ∧ (jog .handling).client = .handling
    ∧ ¬((opAt .clamp).stage = .brk ∧ (opAt .clamp).wrench = .grip)
    ∧ Op.addRod.next .quiet = some .clamp ∧ Op.addRod.next .clamp = some .unscrew
    ∧ Op.removeRod.next .clamp = some .brk ∧ Op.addRod.next .unclamp = none ∧ Op.removeRod.next .unclamp = none
    ∧ inSet (lit (switchMask .clampClosed) calm).sfe.debounced .clampClosed = true
    ∧ inSet calm.sfe.debounced .clampClosed = false ∧ stocked.rrc.rod 1 = some (rod serialB (.slot 3))
    ∧ (inArm 2).rrc.string = [(1, none)] ++ [(1, none)] := by decide +kernel

theorem witness_driller_conditions :
    let head := fun x : Nat => (stocked.setSfe { stocked.sfe with enc := .good, head := some x })
    let torque := calm.setSfe { calm.sfe with torque := ⟨.good, some 8000, 0⟩ }
    (withOp .waiting (opOf .removeRod .spin) calm).pSpinTurns ≤ (6 + (2 ^ 32 - 0)) % 2 ^ 32
    ∧ ¬(calm.pSpinTurns ≤ (5 + (2 ^ 32 - 0)) % 2 ^ 32) ∧ calm.sfe.enc ≠ .good
    ∧ (head 3000).sfe.enc = .good ∧ (head 2999).sfe.head = some 2999
    ∧ stocked.rrc.rod 1 = some (rod serialB (.slot 3)) ∧ (rod serialB (.slot 3)).length ≤ 3000
    ∧ (dark (switchMask .headConnected) calm).on .headConnected = false ∧ calm.on .headConnected = true
    ∧ calm.sfe.torque.st ≠ .good ∧ torque.sfe.torque.st = .good ∧ torque.pMakeTorque ≤ 8000 := by decide +kernel

theorem witness_stage_ends_at_a_switch :
    let s := withOp .running (opOf .addRod .present) (granted toCentre (changing .armAtCentre true stocked))
    let off := withOp .waiting (opOf .addRod .unscrew) (changing .headConnected false stocked)
    let on := fun st => withOp .waiting (opOf .addRod st)
      (changing .headConnected true (dark (switchMask .headConnected) (calm.setSfe { calm.sfe with raw := 0 })))
    due .armAtCentre true s = true ∧ s.rrc.loader = none
    ∧ (s.elapse 20).aha = ⟨some { toCentre with left := some 480 }, [], [], (s.elapse 20).aha.valve⟩
    ∧ toCentre.fn ≠ .index ∧ s.hs.seq = .running ∧ due .headConnected false off = true ∧ off.hs.seq = .waiting
    ∧ due .headConnected true (on .reconnect) = true ∧ due .headConnected true (on .make) = true
    ∧ (on .make).sfe.torque.st ≠ .good := by decide +kernel

theorem witness_trip_goes_on :
    (onTrip .waiting calm).hs.trip = some trip ∧ (trip.done + 1 ≠ trip.count) ∧ trip.stop = false
    ∧ ({ trip with done := 4 } : TripRec).done + 1 = trip.count ∧ latched.cm.gainLatch ≠ none ∧ calm.cm.gainLatch = none
    ∧ trip.dir = .out ∧ (calm.rrc.choose .removeRod none).toOption = none ∧ (onTrip .waiting calm).hs.op = none
    ∧ (stocked.rrc.choose .addRod none).toOption = some (3, 1) ∧ trip.ended = none := by decide +kernel

theorem witness_abort_with_the_arm_full :
    let s := withOp .running (opOf .addRod .ret) (granted toCentre (inArm 0))
    s.ready ∧ s.aha.ok = true ∧ s.hs.seq ≠ .idle ∧ s.rrc.arm = some 0 ∧ s.rrc.loader = none ∧ s.aha.stack = [] ∧ s.aha.waiting = []
    ∧ s.aha.holder = some toCentre ∧ toCentre.client = .handling ∧ toCentre.fn ≠ .index := by
  and_intros <;> decide +kernel

theorem witness_depth_is_decided :
    let dib := fun (d : DState) (fault : Bool) (unset : Bool) (depth : Nat) => calm.setDib
      { calm.dib with dstate := d, encFaulted := fault, unset := unset, depth := depth, headLast := some 500 }
    (dib .fault true true 0).dib.dstate = .fault ∧ (dib .fault true true 0).dib.encFaulted = true
    ∧ (dib .live true true 0).dib.dstate ≠ .fault ∧ (dib .fault false true 0).on .headConnected = true
    ∧ (dib .fault false true 0).dib.unset = true ∧ (3000 : Int) - 500 - 0 - 2400 = 100
    ∧ (dib .held false false 2400).dib.lenLast = 3000 ∧ (100 : Int) < 3000 - 500 - 0 - 2399 := by decide +kernel

theorem witness_loader_tests :
    let load := fun p => stocked.setRrc { stocked.rrc with loader := some ⟨.unload, 3, 1, p⟩ }
    let held := (load .requested).setRrc { (load .requested).rrc with hold := true }
    let q := toSlot .loader none
    (load .waiting).on .armHome = true ∧ (load .waiting).rrc.hold = false
    ∧ (dark (switchMask .armHome) (load .requested)).on .armHome = false
    ∧ ((load .requested).setAha ⟨some (jog .handling), [], [q], none⟩).aha.waiting = [q] ∧ q.client = .loader
    ∧ (granted q held).aha.holder = some q ∧ held.rrc.hold = true := by decide +kernel

theorem witness_readers_of_a_change :
    let lock := fun r => granted r (changing .indexLocked true
      ((dark (switchMask .indexLocked) (calm.setSfe { calm.sfe with raw := 0 })).setRrc
        { calm.rrc with stepMark := true }))
    let back := changing .armHome true (dark (switchMask .armHome) (calm.setSfe { calm.sfe with raw := 0 }))
    due .headConnected false (changing .headConnected false calm) = true ∧ due .armHome false (changing .armHome false calm) = true
    ∧ due .armHome true back = true ∧ due .indexLocked false (changing .indexLocked false calm) = true
    ∧ due .indexLocked true (lock (toSlot .handling none)) = true ∧ due .indexLocked true (lock indexJog) = true
    ∧ ((lock (toSlot .handling (some (some 77)))).elapse 20).aha.holder
      = some { toSlot .handling (some (some 77)) with left := some 480 }
    ∧ (0 + 1) % 40 = 1 ∧ (lock indexJog).rrc.stepMark = true ∧ indexJog.lockWait = none ∧ indexJog.ownStep = true
    ∧ (lock (toSlot .loader none)).rrc.index = 0 := by decide +kernel

theorem witness_group_events :
    let sw := Switch.stopChainHealthy
    let g : Group := ⟨switchMask sw, switchMask sw, 0, false⟩
    let s1 := withOp .running (opAt .index) (granted (toSlot .handling none)
      ((changing sw false calm).setSfe { (changing sw false calm).sfe with g1 := g }))
    let wet : Group := ⟨switchMask .pitHigh, 0, 0, false⟩
    let s2 := fun m => mon m
      ((changing .pitHigh true calm).setSfe { (changing .pitHigh true calm).sfe with g2 := wet })
    let m1 := (putSwitch s1.sfe.debounced sw false ^^^ g.pat) &&& g.sel
    let m2 := (putSwitch calm.sfe.debounced .pitHigh true ^^^ wet.pat) &&& wet.sel
    s1.awake ∧ due sw false (s1.setSfe { s1.sfe with g1 := .reset }) = true ∧ inSet s1.sfe.g1.sel sw = true
    ∧ s1.sfe.g1.mism = 0 ∧ m1 ≠ 0 ∧ s1.aha.valve = some (.index, .first) ∧ (s1.elapse 20).aha.holder.isSome = true
    ∧ s1.hs.seq = .running ∧ s1.aha.stack = [] ∧ (s2 .holeWatch).awake ∧ m2 ≠ 0 ∧ (s2 .watchEntry).cm.mon = .watchEntry
    ∧ due .pitHigh true ((s2 .holeWatch).setSfe { (s2 .holeWatch).sfe with g2 := .reset }) = true
    ∧ (s2 .holeWatch).aha.holder = none ∧ (s2 .idle).cm.mon ≠ .watchEntry := by decide +kernel

theorem witness_start_up_ends :
    let s := fun (k : StartKind) (h : Option Recovery) => (withJob .suspended 5000).setTps
      { calm.tps with phase := .startUp, startKind := k, clock := 500, lossSec := some 440, heldRecovery := h }
    let r : Recovery := ⟨12, some 3, 9, 60, none, none, .noJob, .idle, none, 255⟩
    (s .warm none).tps.phase = .startUp ∧ (s .warm none).tps.inputsReported = true
    ∧ (s .warm none).tps.storeReported = true ∧ (s .cold none).tps.startKind = .cold
    ∧ (s .warm (some r)).tps.heldRecovery = some r ∧ (s .warm none).rws.hasPlace = true
    ∧ ((s .warm none).setRws Rws.reset).rws.hasPlace = false ∧ (s .warm none).rws.nextSeq ≤ 4294967295
    ∧ ¬(calm.tps.phase = .startUp) := by decide +kernel

theorem witness_stroke_leaves_the_watches :
    let s := fun m => mon m calm
    (s .watchEntry).awake ∧ (s .flowCheck).awake ∧ (s .holeWatch).awake ∧ (s .holeWatch).cm.pump2.st = .stopped
    ∧ (s .flowCheck).cm.mon = .flowCheck ∧ (s .watchEntry).cm.pump1.interval = none := by decide +kernel

theorem witness_rise_of_the_mark :
    let s := fun (st : JobSt) (d : Nat) => (withJob st 5000).setDib
      { (withJob st 5000).dib with dstate := .live, depth := d }
    let full := ((s .opened 6000).setRws Rws.reset).setDib
      { (s .opened 6000).dib with queue := List.replicate 16 (entry 1 false), hwm := 6000 }
    let strung := calm.setRrc { stocked.rrc with string := [(1, none), (0, none)] }
    calm.dib.dstate ≠ .live ∧ (s .opened 5001).dib.dstate = .live ∧ (s .noJob 5001).bu.jobSt = .noJob
    ∧ (s .opened 5000).dib.depth ≤ (s .opened 5000).dib.hwm ∧ (s .suspended 5001).dib.hwm < 5001
    ∧ (s .suspended 5001).bu.jobTariff = some tariff ∧ (strung.rrc.string.map Prod.fst).Nodup
    ∧ 5 ∉ strung.rrc.string.map Prod.fst ∧ strung.rrc.rod 1 = some (rod serialB (.slot 3))
    ∧ strung.pDistLimitM * 1000 ≤ min (0 + 60000000) 4294967295 ∧ 0 + 59999999 < strung.pDistLimitM * 1000
    ∧ calm.dib.openIv = none ∧ (s .opened 5001).dib.openIv = some interval ∧ 5999 < interval.boundary
    ∧ interval.boundary ≤ 6000 ∧ (s .opened 6000).dib.queue = [] ∧ 16 ≤ full.dib.queue.length
    ∧ full.rws.hasPlace = false := by decide +kernel

theorem witness_idle_flow_and_drift :
    let s := fun (m : Mon) (sum : Nat) (n : Nat) => calm.setCm
      { calm.cm with mon := m, ref := some 1400, pitSum := sum, pitCount := n, secPulses := 21 }
    (s .idle 0 0).tps.phase = .running ∧ (s .idle 0 0).reports = [] ∧ (s .holeWatch 0 0).cm.pitCount = 0
    ∧ calm.pFlowAllowance < (((s .idle 0 0).cm.secPulses * ((s .idle 0 0).elapse 3).inForce.k :: []).take
      calm.pFlowPeriod).sum ∧ latched.cm.gainLatch ≠ none ∧ latched.cm.lossLatch ≠ none
    ∧ 0 < calm.pDriftBand ∧ calm.pDriftBand = 50 ∧ (s .holeWatch 2903 2).cm.pitSum / 2 = 1451
    ∧ (50 : Int) < 1451 - 1400 ∧ 1 * 50 < (1451 : Int) - 1400 ∧ (1501 : Int) - 1400 ≤ (2 + 1) * 50
    ∧ (1349 : Int) - 1400 < -50 ∧ (1450 : Int) - 1400 ≤ 50 ∧ (s .holeWatch 2903 2).cm.hiStep < 1 := by decide +kernel

theorem witness_pit_check :
    let e := fun (p : Option Nat) => (⟨-30000, .unclamped, p, 0⟩ : RingEntry)
    let s := fun l => calm.setCm { calm.cm with ring := l, sum := -60000, disagree := 2 }
    (s [e (some 0)]).cm.ring.length < 2 ∧ (∃ x ∈ (s [e none, e (some 0)]).cm.ring, x.pit = none)
    ∧ (s [e (some 900000), e (some 0), e (some 900000)]).cm.ring = e (some 900000) :: [e (some 0)] ++ [e (some 900000)]
    ∧ ((900000 : Int) - 900000 - 0 - (-60000 - -30000)).natAbs ≤ calm.force.tol
    ∧ calm.force.tol < ((900001 : Int) - 900000 - 0 - (-60000 - -30000)).natAbs
    ∧ min 10 ((s []).cm.disagree + 1) = calm.force.m := by decide +kernel

/-- A store of one record of two blocks, in blocks 254 and 255, and a block of another sector. -/
def recorded : List Block :=
  programBlock (programBlock (programBlock [] 254 (record.pattern 0)) 255 (record.pattern 1)) 600 (List.replicate 64 0#8)

theorem witness_scan :
    let r := { Rws.reset with store := recorded }
    let x : Readable := ⟨254, .interval, 40, 12, 2, 5⟩
    let b := blockAt recorded 254
    storeWf recorded = true ∧ blockAt recorded b.addr = b ∧ b.normal.length = 64 ∧ b.margin.length = 64
    ∧ scanAccept recorded b = some x ∧ scanAccept recorded (blockAt recorded 600) = none
    ∧ scanFrom r.store r.halfErased r.store 0 = [x] ∧ x.seq ≠ 4294967295 ∧ 0 < x.seq
    ∧ (∀ y ∈ [x], y = x ∨ y.seq < x.seq) := by decide +kernel

theorem witness_scan_found_nothing_waiting :
    State.reset.awake ∧ State.reset.dib.queue = [] ∧ State.reset.bu.outbox = [] ∧ State.reset.tps.heldRecovery = none
    ∧ State.reset.tps.inputsReported = false ∧ State.reset.rws.queue = [] ∧ State.reset.rws.slot = none := by
  decide +kernel

/-! ## Witnesses of the clauses on notices, the loader, the grant and the writer -/

theorem witness_notice_kinds :
    let l := fun (a b : NoticeSt) (mask : BitVec 24) => { calm.lc with
      notices := (calm.lc.notices.set 0 ⟨a, false, some .poweredCold, 3⟩).set 23 ⟨b, true, none, 255⟩, mask := mask }
    let all := (BitVec.allOnes 24)
    (l .waiting .waiting all).nextKind = some 1 ∧ (l .sent .waiting all).nextKind = some 24
    ∧ (l .waiting .waiting 0x800000#24).nextKind = some 24 ∧ (l .sent .clear all).nextKind = none
    ∧ ((l .waiting .sent all).notices.getD 0 .reset).detail = some .poweredCold
    ∧ (l .waiting .sent all).notices.length = 24 ∧ Detail.poweredCold.kind ≤ 24 := by decide +kernel

theorem witness_limits_and_length :
    let u := stocked.setRrc { stocked.rrc with string := [(1, none)] }
    u.rrc.registry.length = 160
    ∧ u.pBottomAssembly + 3000 ≠ u.dib.lenLast
    ∧ calm.pBottomAssembly + 0 = (calm.setDib { calm.dib with lenLast := calm.pBottomAssembly }).dib.lenLast := by
  decide +kernel

theorem witness_loader_ends :
    let s := fun k => stocked.setRrc { stocked.rrc with
      loader := some ⟨k, 3, 1, .requested⟩, slots := stocked.rrc.slots.set 3 (.reserved .loader .take 1) }
    (s .load).rrc.loader = some ⟨.load, 3, 1, .requested⟩ ∧ (s .load).reports = [] ∧ (toSlot .loader none).client = .loader
    ∧ (s .unload).rrc.loader.map LoadOp.kind = some .unload ∧ (s .load).rrc.rod 1 = some (rod serialB (.slot 3))
    ∧ (s .load).rrc.slotAt 3 = .reserved .loader .take 1 := by decide +kernel

theorem witness_stages_begin :
    let s := fun (op : Op) (x : SwitchSet) => dark x (withOp .running (opOf op .quiet) stocked)
    let shut := switchMask .clampClosed
    let two := switchMask .mastLocked ||| switchMask .stopChainHealthy
    let miss := fun (u : State) (g : SwitchSet) => (u.sfe.debounced ^^^ g) &&& g
    let head := (s .removeRod 0).setSfe { (s .removeRod 0).sfe with enc := .good, head := some 3000 }
    (s .addRod 0).hs.op = some (opOf .addRod .quiet) ∧ Stage.index ∈ Op.addRod.stages ∧ Stage.unclamp ∈ Op.removeRod.stages
    ∧ latched.cm.gainLatch ≠ none ∧ (s .addRod 0).cm.gainLatch = none
    ∧ miss (s .addRod 0) (two ||| shut) ≠ 0 ∧ miss (lit shut (s .addRod 0)) (two ||| shut) = 0
    ∧ miss (s .removeRod 0) two = 0 ∧ miss (s .removeRod (switchMask .mastLocked)) two ≠ 0
    ∧ (s .addRod (switchMask .headConnected)).on .headConnected = false ∧ (s .addRod 0).on .headConnected = true
    ∧ quietMet (s .addRod 0) = false ∧ head.sfe.enc = .good ∧ head.rrc.rod 1 = some (rod serialB (.slot 3))
    ∧ ¬((s .removeRod 0).pSpinTurns ≤ (0 + (2 ^ 32 - 0)) % 2 ^ 32) ∧ (s .addRod 0).rrc.hold = false := by
  and_intros <;> decide +kernel

theorem witness_stages_follow :
    let s := withOp .running { opOf .removeRod .brk with wrench := .grip } calm
    Op.addRod.stages = [.quiet] ++ .clamp :: [.unscrew, .index, .present, .make, .ret, .unclamp]
    ∧ s.hs.op = some { opOf .removeRod .brk with wrench := .grip } ∧ s.reports = [] ∧ s.hs.seq = .running
    ∧ (jog .handling).client = .handling ∧ (inArm 2).rrc.string = [(1, none)] ++ [(1, none)]
    ∧ (inArm 0).rrc.string = [] := by decide +kernel

theorem witness_pump_and_quiet :
    let quiet := withOp .waiting (opAt .quiet) (calm.setCm { calm.cm with fcResult := .passed })
    calm.hs.op = none ∧ (withOp .running (opAt .clamp) calm).hs.op = some (opAt .clamp) ∧ (opAt .clamp).stage ≠ .quiet
    ∧ (withOp .held (opAt .clamp) calm).hs.seq = .held ∧ (opAt .unclamp).begun = true
    ∧ quiet.hs.op = some (opAt .quiet) ∧ quietMet quiet = true ∧ quietMet calm = false := by decide +kernel

theorem witness_a_closing_makes_room :
    let full := fun e : Entry => (withJob .opened 6000).setDib
      { (withJob .opened 6000).dib with queue := List.replicate 16 e }
    let stale := (withJob .opened 6000).setDib { (withJob .opened 6000).dib with queue := [entry 1 true, entry 2 false] }
    calm.dib.nextInterval < 65535 ∧ 16 ≤ (full (entry 1 false)).dib.queue.length
    ∧ (full (entry 1 false)).rws.hasPlace = true ∧ (entry 1 false).st = .awaiting
    ∧ stale.dib.queue = entry 1 true :: [entry 2 false] ∧ (entry 1 true).flush = true
    ∧ (makeRoom (full (entry 1 false))).2 = true ∧ (makeRoom stale).2 = true ∧ (makeRoom (full (entry 1 true))).2 = false
    ∧ calm.dib.queue = [] ∧ ((full (entry 1 false)).setRws Rws.reset).rws.hasPlace = false
    ∧ interval.top < 6000 ∧ interval.boundary ≤ 6000 := by decide +kernel

theorem witness_lines_of_an_interval :
    let v := { interval with mats := [(1, 5), (2, 999999999), (3, 5), (4, 5)] }
    (∃ x ∈ v.mats, x.1 = 2) ∧ (∀ x ∈ v.mats, x.1 ≠ 7) ∧ 4 ≤ v.mats.length
    ∧ interval.mats.length < 4 ∧ (∀ x ∈ interval.mats, x.1 ≠ 7) := by decide +kernel

theorem witness_outbox :
    let one := calm.setBu { calm.bu with outbox := [.ticket 3 12 [7#8]] }
    let shut := calm.setRws Rws.reset
    calm.bu.outbox = [] ∧ one.bu.outbox ≠ [] ∧ one.bu.outbox = .ticket 3 12 [7#8] :: []
    ∧ (handOver .ticket 12 [7#8] false (some 3) calm).2 = some calm.rws.nextSeq
    ∧ (handOver .jobOpened 12 [7#8] true none calm).2 = some calm.rws.nextSeq
    ∧ (handOver .ticket 12 [7#8] false (some 3) shut).2 = none
    ∧ calm.rws.hasPlace = true ∧ shut.rws.hasPlace = false := by decide +kernel

theorem witness_grants :
    let moving := { jog .handling with target := .switch .clampClosed }
    let turn := granted (toSlot .loader none) calm
    let queued := calm.setAha ⟨none, [jog .handling], [toSlot .loader none], none⟩
    (∀ x ∈ calm.aha.standing, x.client ≠ .manual) ∧ targetMet (lit (switchMask .clampClosed) calm) moving = true
    ∧ targetMet calm moving = false ∧ calm.aha.holder = none ∧ moving.fn ≠ .index
    ∧ turn.aha.holder = some (toSlot .loader none) ∧ (∀ x ∈ turn.aha.standing, x.client ≠ .handling)
    ∧ Client.handling.rank < (toSlot .loader none).client.rank ∧ (toSlot .loader none).client.rank ≤ Client.manual.rank
    ∧ (toSlot .loader none).fn = .index ∧ targetMet calm (toSlot .loader none) = false ∧ calm.on .indexLocked = true
    ∧ (dark (switchMask .indexLocked) calm).on .indexLocked = false
    ∧ calm.on .armHome = true ∧ calm.on .stopChainHealthy = true
    ∧ (dark (switchMask .armHome) calm).on .armHome = false
    ∧ queued.aha.stack = jog .handling :: [] ∧ queued.aha.waiting = toSlot .loader none :: []
    ∧ Client.handling.rank < Client.loader.rank ∧ (tryGrant (jog .handling) calm).2 = true
    ∧ (tryGrant (toSlot .loader none) (dark (switchMask .armHome) calm)).2 = false := by
  and_intros <;> decide +kernel

/-- DIVERTER over a driven index motion of the loader whose step has not begun, INDEX LOCKED still on. -/
theorem witness_diverter_over_an_index_motion :
    let held := { toSlot .loader none with ownStep := true }
    let s := dark (switchMask .diverterOpen) (granted held calm)
    s.ready ∧ s.aha.stands .wellControl = false ∧ (s.heard 5).on .diverterOpen = false
    ∧ (s.heard 5).on .indexLocked = true ∧ s.rrc.stepMark = false
    ∧ (s.heard 5).aha.holder = some { held with left := some 495 } ∧ held.fn = .index ∧ held.ownStep = true
    ∧ after (.diverter 5 1 1) s (fun t => t.aha.stack.map Req.ownStep == [false]) = true := by
  and_intros <;> decide +kernel

theorem witness_a_counted_step :
    let s := fun n => granted { toSlot .loader none with target := .slot n }
      ((calm.setSfe { calm.sfe with acquisitionEnded := false }).setTps
        { calm.tps with phase := .startUp, storeReported := false })
    let t := fun n => (s n).setRrc { (s n).rrc with stepMark := true }
    (t 1).awake ∧ (t 1).sfe.acquisitionEnded = false ∧ ((t 1).elapse 5).sfe.acquired = BitVec.allOnes 16
    ∧ ((t 1).elapse 5).on .indexLocked = true ∧ (t 1).rrc.stepMark = true
    ∧ (∀ x ∈ ((t 1).elapse 5).aha.standing, x.client ≠ .manual)
    ∧ ((t 1).elapse 5).aha.holder.map (fun q => (q.fn, q.target, q.lockWait)) = some (.index, .slot 1, none)
    ∧ ((t 2).elapse 5).aha.holder.map (fun q => (q.fn, q.target, q.lockWait)) = some (.index, .slot 2, none)
    ∧ stepFrom (t 1).rrc.stepDir (t 1).rrc.index = 1 ∧ (t 2).tps.storeReported = false := by
  and_intros <;> decide +kernel

theorem witness_pit_in_the_entry :
    let good := calm.setSfe { calm.sfe with
      pit := ⟨.good, some 5, 0⟩, press := ⟨.good, some 5, 0⟩, torque := ⟨.good, some 5, 0⟩ }
    let failed := good.setSfe { good.sfe with pit := ⟨.faulted, some 5, 0⟩ }
    let drilling := good.setBu { good.bu with category := .drilling }
    (mon .watchEntry good).awake ∧ ((mon .watchEntry good).elapse 100).sfe.sampleTimer = some 0
    ∧ (mon .watchEntry good).cm.mon = .watchEntry ∧ (mon .watchEntry failed).awake
    ∧ (failed.sfe.pit.sample none) = (⟨.faulted, some 5, 0⟩, none) ∧ failed.awake ∧ failed.cm.mon ≠ .watchEntry
    ∧ drilling.sfe.press.st = .good ∧ drilling.sfe.press.value = some 5 ∧ drilling.bu.category = .drilling
    ∧ calm.bu.category ≠ .drilling := by decide +kernel

theorem witness_divert :
    let auto := fun n => calm.setParams (calm.params.set 15 n)
    let well := fun d => { Req.new .wellControl .diverter d (.switch .diverterClosed) with byMessage := true }
    (∀ q ∈ calm.aha.standing, q.client ≠ .wellControl)
    ∧ (granted (well .second) calm).aha.standing = [] ++ well .second :: [] ∧ (well .first).dir = .first
    ∧ (auto 1).pAutoDivert = true
    ∧ (auto 0).pAutoDivert = false
    ∧ calm.reports = [] ∧ (well .first).client = .wellControl := by decide +kernel

theorem witness_head_of_the_queue :
    let s := fun e : Entry => calm.setDib { calm.dib with queue := [e, entry 2 false] }
    let ready := { entry 1 false with st := .sampleDue 7 9, graceOver := true }
    (s ready).dib.queue = ready :: [entry 2 false] ∧ ready.st ≠ .awaiting ∧ ready.graceOver = true
    ∧ (entry 1 false).flush = false ∧ (entry 1 false).st = .awaiting ∧ calm.dib.queue = []
    ∧ (handOver .interval 12 [7#8] false (some 1) (s ready)).2 = some calm.rws.nextSeq
    ∧ (handOver .interval 12 [7#8] false (some 1) ((s ready).setRws Rws.reset)).2 = none := by decide +kernel

theorem witness_places_of_a_write :
    let w := write .queue 0 0 none
    let r := fun (h : Nat) (x : Record) => { (writing w .idle 0).rws with head := h, queue := [x] }
    (r 10 record).write = some w ∧ w.src = .queue ∧ (r 10 record).queue.head? = some record
    ∧ 10 % 256 ≠ 0 ∧ (r 512 record).sectors.getD (512 / 256) .erased = .erased
    ∧ (({ (r 512 record) with sectors := calm.rws.sectors.set 2 .reErase } : Rws).sectors.getD 2 .erased) ≠ .erased
    ∧ 256 - 255 % 256 < record.blocks ∧ ({ record with fresh := true } : Record).fresh = true
    ∧ (write .slot 0 0 none).src = .slot ∧ (writing (write .slot 0 0 none) .idle 0).rws.slot = some record
    ∧ (writing w (.erasing 3) 3).rws.wst ≠ .idle ∧ calm.rws.wst = .idle ∧ calm.rws.recovering = none
    ∧ calm.rws.scanning = false ∧ calm.rws.write = none ∧ calm.rws.slot = none ∧ calm.rws.queue = [] := by
  decide +kernel

theorem witness_records_handed_over :
    let s := fun (n : Nat) (x : Bool) (l : List Record) => calm.setRws
      { calm.rws with nextSeq := n, exhausted := x, queue := l }
    calm.rws.accepting = true ∧ State.reset.rws.accepting = false ∧ 4294967295 < (s 4294967296 false []).rws.nextSeq
    ∧ (s 4294967296 true []).rws.exhausted = true ∧ 4 ≤ (s 7 false (List.replicate 4 record)).rws.queue.length
    ∧ (s 4294967295 false []).rws.nextSeq ≤ 4294967295 ∧ calm.tps.heldRecovery = none
    ∧ (handOver .recovery 0 [7#8] false none calm).2 = some calm.rws.nextSeq := by decide +kernel

theorem witness_recovery_of_the_writer :
    let s := fun (w : Write) (m : Option WMark) => let u := writing w .idle 0
      u.setRws { u.rws with write := some { w with mark := m } }
    let dirty := calm.setRws { calm.rws with sectors := calm.rws.sectors.set 3 .reErase }
    let clearing := writing (write .queue 0 0 none) (.erasing 3) 3
    let u := clearing.setRws { clearing.rws with recovering := some .clearing }
    let ended := calm.setRws { calm.rws with recovering := some .finishing }
    dirty.rws.sectors[3]? = some .reErase ∧ (∀ j, j < 3 → dirty.rws.sectors[j]? ≠ some .reErase)
    ∧ (∀ x ∈ calm.rws.sectors, x ≠ .reErase) ∧ calm.rws.write = none
    ∧ (s (write .slot 2 0 none) (some .unverified)).rws.slot = some record ∧ record.blocks ≤ 2
    ∧ (s (write .queue 1 0 none) (some .unverified)).rws.queue.head? = some record ∧ 1 < record.blocks
    ∧ (write .slot 0 0 none).done = 0 ∧ (write .slot 2 1 none).attempts < 2 ∧ (write .slot 2 1 none).mark = none
    ∧ u.awake ∧ u.rws.wst = .erasing 3 ∧ (u.elapse 3).rws.timer = some 0 ∧ u.rws.recovering = some .clearing
    ∧ ended.rws.recovering = some .finishing ∧ ended.rws.wst = .idle ∧ ended.rws.write = none := by
  and_intros <;> decide +kernel

/-! ## Witnesses of the clauses on the link at rest, gain waits, tickets and warm starts -/

theorem witness_link_at_rest :
    let b : TxFrame := ⟨.reply, ⟨0x81#8, 1, [0, 0]⟩⟩
    let kind := calm.setLc { calm.lc with notices := calm.lc.notices.set 4 ⟨.waiting, false, none, 1⟩ }
    calm.lc.locked = true ∧ calm.lc.tx = none ∧ calm.lc.built = none ∧ calm.lc.nextKind = none
    ∧ (calm.setLc { calm.lc with built := some b }).lc.built = some b ∧ kind.lc.nextKind = some 5
    ∧ kind.lc.built = none ∧ (sending .reply [] kind).lc.tx ≠ none
    ∧ (calm.setLc { calm.lc with locked := false }).lc.locked = false := by decide +kernel

theorem witness_serials : serialValid 0x011E01060224#48 = true ∧ serialValid 0x001E01060208#48 = false
    ∧ serialValid 0x251E01060208#48 = false ∧ stocked.rrc.find 0x011E01060224#48 = none
    ∧ (stocked.rrc.find serialA).isSome = true := by decide +kernel

theorem witness_encoder_changes :
    let s := fun x e => stocked.setSfe { stocked.sfe with head := x, enc := e }
    (s none (.fault .unreferenced)).ready ∧ (s none (.fault .unreferenced)).sfe.enc ≠ .good
    ∧ (s (some 7500) .good).awake ∧ (s (some 7500) .good).sfe.enc = .good
    ∧ (s (some 0) .good).sfe.head = some 0 := by decide +kernel

theorem witness_a_gain_wait :
    let l : Latch := ⟨.balance, 1, 40000⟩
    let s := (withOp .waiting { opAt .unscrew with begun := false } calm).setCm
      { calm.cm with gainLatch := some l, fcResult := .passed }
    s.ready ∧ s.cm.mon = .idle ∧ s.cm.fcResult = .passed ∧ s.cm.gainLatch ≠ none
    ∧ s.hs.seq = .waiting ∧ s.hs.op = some { opAt .unscrew with begun := false }
    ∧ (withOp .waiting (opAt .quiet) calm).hs.op = some (opAt .quiet) ∧ (opAt .quiet).begun = true
    ∧ calm.hs.seq ≠ .waiting ∧ calm.hs.op = none ∧ calm.hs.trip = none := by decide +kernel

theorem witness_a_trip_resumes :
    let l : Latch := ⟨.balance, 1, 40000⟩
    let s := fun (x : TripRec) (u : State) => u.setHs { u.hs with seq := .interrupted, trip := some x }
    let inward : TripRec := { trip with dir := .inward }
    (s trip calm).ready ∧ (s trip calm).hs.op = none ∧ (s { trip with stop := true } calm).ready
    ∧ (s trip (calm.setCm { calm.cm with gainLatch := some l })).cm.gainLatch ≠ none
    ∧ trip.dir = .out ∧ trip.stop = false ∧ calm.cm.gainLatch = none
    ∧ (calm.rrc.choose .removeRod none).toOption = none ∧ (s inward stocked).ready
    ∧ (stocked.rrc.choose .addRod none).toOption = some (3, 1) := by decide +kernel

theorem witness_a_final_ticket_takes_the_place :
    let s := fun (next : Nat) (l : List Ticket) =>
      let u := withTickets l (withJob .closing 5000)
      u.setBu { u.bu with finalWaiting := true, nextTicket := next, job := some ⟨12, 1, 5000, 7, some 90⟩ }
    let left := fun (u : State) => u.setBu { u.bu with tickets := u.bu.tickets.filter (fun k => k.number != 1) }
    let eight := s 9 (ticket 1 (some 9) :: List.replicate 7 (ticket 2 (some 9)))
    let spent := s 4294967295 [ticket 1 (some 9), ticket 4294967295 none]
    eight.ready ∧ eight.bu.listFree = false ∧ (left eight).bu.listFree = true ∧ eight.bu.jobTariff = some tariff
    ∧ eight.bu.job = some ⟨12, 1, 5000, 7, some 90⟩ ∧ spent.ready ∧ (left spent).bu.listFree = false
    ∧ (mkTicket { eight.bu with since := { eight.bu.since with footage := [99999999999999, 1] } }
        ⟨12, 1, 5000, 7, some 90⟩ tariff .final 90).saturated = true := by
  and_intros <;> decide +kernel

theorem witness_a_ring_length :
    let s := fun n => calm.setParams (calm.params.set 1 n)
    (s 12).force.n = 12 ∧ (s 13).force.n ≠ 12 := by decide +kernel

theorem witness_warm_starts :
    let off := fun (m : Option WMark) (n : Nat) (rec : Record) => (calm.setTps { calm.tps with phase := .off }).setRws
      { calm.rws with slot := some rec, write := m.map (fun x => { write .slot 2 n none with mark := some x }) }
    let w := fun (n : Nat) => { write .slot 2 n none with mark := some (.rewrite .failure) }
    (off none 0 record).tps.valid = true ∧ (off none 0 record).rws.write = none
    ∧ (off (some (.rewrite .failure)) 1 record).rws.write = some (w 1)
    ∧ (off (some (.rewrite .failure)) 2 record).rws.write = some (w 2) ∧ 2 ≤ (w 2).attempts
    ∧ (off none 0 { record with kind := .lost }).rws.slot = some { record with kind := .lost }
    ∧ record.kind ≠ .lost ∧ (∀ x ∈ calm.rws.sectors, x ≠ .reErase)
    ∧ (recoverStart (off none 0 record)).rws.write = none := by
  and_intros <;> decide +kernel

/-- R182: a serial with a character that is no letter and no digit is refused RANGE. -/
theorem test_serial_out_of_range : after (.retireRod 5 1 0x251E01060208#48) stocked
    (fun t => reply t == some [3, 3]) = true := by decide +kernel

/-! ## Witnesses of the clauses on flushed entries, two groups at once and the pit in a watch entry -/

theorem witness_entries_of_the_earlier_job :
    let s := calm.setBu { calm.bu with tariffs := [some tariff, none, none, none], outbox := [.ticket 2 12 []] }
    let with_queue := fun l : List Entry => s.setDib { s.dib with queue := l }
    let full := (with_queue [entry 1 true, entry 2 false]).setRws { s.rws with accepting := false }
    let gone := { entry 2 false with flush := true, iv := { (entry 2 false).iv with unsampled := true } }
    (with_queue [entry 2 false]).ready ∧ s.bu.jobSt = .noJob ∧ s.bu.tariffAt 1 = some tariff ∧ s.bu.listFree = true
    ∧ s.rws.hasPlace = true ∧ s.bu.outbox ≠ [] ∧ full.ready ∧ full.rws.hasPlace = false
    ∧ full.rws.nextSeq ≤ 4294967295 ∧ full.dib.depth ≤ (0#32).toNat ∧ [entry 2 false].map flushEntry = [gone]
    ∧ full.dib.queue.map flushEntry = [entry 1 true, gone] := by decide +kernel

theorem witness_two_groups_at_once :
    let sw := Switch.stopChainHealthy
    let g : Group := ⟨switchMask sw, switchMask sw, 0, false⟩
    let u := changing sw false calm
    let s := withOp .running (opAt .index) (granted (toSlot .handling none)
      (u.setSfe { u.sfe with g0 := g, g1 := g }))
    let idle := granted (toSlot .loader none) (u.setSfe { u.sfe with g0 := g, g1 := g })
    let m := (putSwitch s.sfe.debounced sw false ^^^ g.pat) &&& g.sel
    let bare := fun t : State => t.setSfe { t.sfe with g0 := .reset, g1 := .reset }
    s.awake ∧ due sw false (bare s) = true ∧ inSet s.sfe.g0.sel sw = true ∧ inSet s.sfe.g1.sel sw = true
    ∧ s.sfe.g0.mism = 0 ∧ s.sfe.g1.mism = 0 ∧ m ≠ 0 ∧ s.hs.op = some (opAt .index) ∧ s.hs.seq = .running
    ∧ (s.elapse 20).aha.holder = some { toSlot .handling none with left := some 480 } ∧ s.aha.stack = []
    ∧ s.aha.waiting = [] ∧ idle.awake ∧ idle.hs.op = none ∧ (idle.elapse 20).aha.holder.isSome = true
    ∧ idle.aha.valve = some (.index, .first) ∧ due sw false (bare idle) = true := by
  and_intros <;> decide +kernel

theorem witness_arm_home_under_its_guard :
    let g : Group := ⟨switchMask .armHome, switchMask .armHome, 0, false⟩
    let u := changing .armHome false stocked
    let loads := (u.setSfe { u.sfe with g1 := g }).setRrc { u.rrc with loader := some ⟨.unload, 3, 1, .requested⟩ }
    let runs := granted (toSlot .loader none) loads
    let waits := loads.setAha
      ⟨some (toSlot .handling none), [], [toSlot .loader none], some (.index, .first)⟩
    runs.awake ∧ runs.rrc.hold = false ∧ runs.aha.holds .loader = true ∧ waits.awake ∧ waits.aha.stands .loader = true
    ∧ waits.aha.holds .loader = false ∧ (runs.elapse 20).aha.holder.isSome = true
    ∧ (waits.elapse 20).aha.holder.isSome = true ∧ inSet runs.sfe.g1.sel .armHome = true
    ∧ due .armHome false (runs.setSfe { runs.sfe with g1 := .reset }) = true
    ∧ due .armHome false (waits.setSfe { waits.sfe with g1 := .reset }) = true
    ∧ (putSwitch runs.sfe.debounced .armHome false ^^^ g.pat) &&& g.sel ≠ 0 := by
  and_intros <;> decide +kernel

theorem witness_a_pit_that_fails_in_the_entry :
    let good := mon .watchEntry (calm.setSfe { calm.sfe with
      pit := ⟨.good, some 5, 0⟩, press := ⟨.good, some 5, 0⟩, torque := ⟨.good, some 5, 0⟩ })
    good.awake ∧ (good.elapse 100).sfe.sampleTimer = some 0 ∧ good.sfe.pit.st = .good ∧ good.sfe.pit.value = some 5
    ∧ goodValue 4000 199 = none ∧ goodValue 4000 10201 = none ∧ goodValue 4000 200 = some 0
    ∧ (good.sfe.press.sample (goodValue 25000 200)).2 = none
    ∧ (good.sfe.torque.sample (goodValue 30000 10200)).2 = none ∧ good.cm.mon = .watchEntry := by
  and_intros <;> decide +kernel

theorem witness_the_warning_in_a_block :
    let first := writing (write .queue 0 0 none) .programming 3
    let again := writing (write .slot 1 0 none) .programming 3
    first.rws.inHand = some record ∧ first.tps.phase ≠ .off
    ∧ first.rws.sectors.getD ((10 + 0) / 256) .erased = .erased
    ∧ again.rws.inHand = some record ∧ again.rws.write = some (write .slot 1 0 none)
    ∧ record.blocks ≤ 1 + 1 ∧ (write .slot 1 0 none).src = .slot ∧ again.tps.phase ≠ .off := by
  and_intros <;> decide +kernel

/-- The stop chain opens under the operation's own index motion: HELD once, with GUARD. -/
theorem test_stop_chain_holds_the_index_stage :
    let sw := Switch.stopChainHealthy
    let g : Group := ⟨switchMask sw, switchMask sw, 0, false⟩
    let u := changing sw false calm
    after (.switchChangeTaken 20 sw) (withOp .running (opAt .index) (granted (toSlot .handling none)
        (u.setSfe { u.sfe with g0 := g, g1 := g })))
      (fun t => t.hs.seq == .held && t.hs.cause == some (.held .guard (some (switchMask sw)))
        && t.aha.holder.isNone && t.sfe.g1.sel == 0) = true := by decide +kernel

/-! ## One step each, with results taken from the rules -/

/-- A jog suspended between steps takes no end from a step of the loader's, which counts (R71, R73). -/
theorem test_a_foreign_step_leaves_the_jog :
    after (.switchChangeTaken 20 .indexLocked)
      ((changing .indexLocked true ((dark (switchMask .indexLocked) (calm.setSfe { calm.sfe with raw := 0 })).setRrc
        { calm.rrc with stepMark := true })).setAha
          ⟨some { toSlot .loader none with target := .slot 2 }, [indexJog.suspended false], [], some (.index, .first)⟩)
      (fun t => t.rrc.index == 1 && t.aha.stack == [indexJog.suspended false]) = true := by decide +kernel

theorem test_identify_answers_done : after (.identify 5 7) calm (fun t => reply t == some [0, 0]) = true := by
  decide +kernel
/-- The reply's kind is the request's plus 80H (R200). -/
theorem test_reply_kind : after (.readSignals 5 7) calm
    (fun t => t.lc.tx.map (fun x => (x.frame.kind, x.frame.tag)) == some (0x89#8, 7#8)) = true := by
  decide +kernel
/-- BALANCE WINDOW's range is 2 to 20 (12.2): 21 is stored as 20 and CLAMPED, reason byte 0. -/
theorem test_set_parameter_clamps : after (.setParameter 5 7 1 21) calm
    (fun t => t.params.head? == some 20 && reply t == some [2, 0]) = true := by decide +kernel
/-- Number 28 names no parameter: REFUSED (3), RANGE (3). -/
theorem test_set_parameter_range : after (.setParameter 5 7 28 1) calm (fun t => reply t == some [3, 3]) = true := by
  decide +kernel
theorem test_head_height_preset : after (.headHeightPreset 5 7 8000) calm
    (fun t => t.sfe.head == some 7500 && t.sfe.enc == .good && reply t == some [2, 0]) = true := by decide +kernel
theorem test_index_preset : after (.indexPreset 5 7 39) calm
    (fun t => t.rrc.index == 39 && reply t == some [0, 0]) = true := by decide +kernel
theorem test_depth_offset_refused_with_a_job : after (.depthOffset 5 7 9) (withJob .opened 5000)
    (fun t => reply t == some [3, 4]) = true := by decide +kernel
theorem test_set_notice_mask : after (.setNoticeMask 5 7 0x00000F#24) calm
    (fun t => t.lc.mask == 0x00000F#24) = true := by decide +kernel
/-- A SENT kind named is CLEAR; with its again mark it is PENDING (R185). -/
theorem test_ack_notices : after (.ackNotices 5 7 0x000003#24)
    (calm.setLc { calm.lc with
      notices := (calm.lc.notices.set 0 ⟨.sent, false, none, 1⟩).set 1 ⟨.sent, true, none, 1⟩ })
    (fun t => (t.lc.notices.take 2).map Notice.st == [.clear, .waiting]) = true := by decide +kernel
theorem test_clear_all_job_open : after (.clearAll 5 7) (withJob .opened 5000)
    (fun t => reply t == some [3, 12]) = true := by decide +kernel
theorem test_clear_all_restarts_after_its_reply : after (.transmitComplete 5) (sending .clearReply [] (mon .holeWatch calm))
    (fun t => t.cm.mon == .idle && t.tps.phase == .startUp && t.tps.startKind == .cold) = true := by decide +kernel
theorem test_set_clock : after (.setClock 5 7 0xFFFFFFFF#32) calm
    (fun t => t.tps.clock == 4294967295) = true := by decide +kernel
/-- MAST LOCKED expected off while it is on: GROUP MISMATCH, the seventh kind, is PENDING. -/
theorem test_set_watch_raises : after (.setWatch 5 7 (switchMask .mastLocked) 0) calm
    (fun t => t.sfe.g3.flag && (t.lc.notices.getD 6 .reset).st == .waiting) = true := by decide +kernel
theorem test_set_pump_range : after (.setPump 5 7 3 8000 950) calm (fun t => reply t == some [3, 3]) = true := by
  decide +kernel
theorem test_set_return_meter_clamps : after (.setReturnMeter 5 7 9) calm
    (fun t => t.param 14 == 10 && reply t == some [2, 0]) = true := by decide +kernel
theorem test_declare_addition_zero : after (.declareAddition 5 7 0) calm (fun t => reply t == some [3, 3]) = true := by
  decide +kernel
/-- The GAIN latch needs IDLE after a PASSED check: INTERLOCK (6). -/
theorem test_accept_gain_interlock : after (.acceptLatch 5 7 2) calm (fun t => reply t == some [3, 6]) = true := by
  decide +kernel
theorem test_enter_hole_watch_interlock : after (.enterHoleWatch 5 7) calm (fun t => reply t == some [3, 6]) = true := by
  decide +kernel
theorem test_register_rod : after (.registerRod 5 7 serialB 6100 4) calm
    (fun t => (t.rrc.rod 0).map Rod.loc == some .rack && reply t == some [0, 0]) = true := by decide +kernel
theorem test_register_rod_taken : after (.registerRod 5 7 serialB 6100 4) stocked
    (fun t => reply t == some [3, 9]) = true := by decide +kernel
theorem test_retire_rod : after (.retireRod 5 7 serialA) stocked
    (fun t => t.rrc.retired == [0] && (t.rrc.rod 0).map Rod.loc == some .retired) = true := by decide +kernel
/-- The index stands at 0 and slot 25 is 15 steps down: 4 s and 2 s a step. -/
theorem test_load_slot_requests : after (.loadSlot 5 7 serialA 25) stocked (fun t => reply t == some [1, 0]
    && t.aha.holder.map (fun r => (r.client, r.route, r.left)) == some (.loader, some (.descending, 15), some 34000)) = true := by
  decide +kernel
theorem test_unload_empty_slot : after (.unloadSlot 5 7 4) stocked (fun t => reply t == some [3, 8]) = true := by
  decide +kernel
theorem test_place_rod_in_string : after (.placeRod 5 7 40) (inArm 0)
    (fun t => t.rrc.string == [(0, none)] && t.rrc.arm == none) = true := by decide +kernel
theorem test_add_rod_reserves : after (.addRod 5 7 255) stocked
    (fun t => t.rrc.slotAt 3 == .reserved .handling .take 1 && t.hs.seq == .waiting && reply t == some [1, 0]) = true := by
  decide +kernel
theorem test_remove_rod_empty_string : after (.removeRod 5 7 255) calm
    (fun t => reply t == some [3, 4]) = true := by decide +kernel
theorem test_start_trip_beyond_string : after (.startTrip 5 7 1 1) calm
    (fun t => reply t == some [3, 3] && t.hs.trip == none) = true := by decide +kernel
theorem test_stop_trip : after (.stopTrip 5 7) (onTrip .held calm)
    (fun t => t.hs.seq == .idle && t.hs.trip.map TripRec.ended == some (some (.stopped, 0))) = true := by decide +kernel
theorem test_resume_idle : after (.resume 5 7) calm (fun t => reply t == some [3, 4]) = true := by decide +kernel
theorem test_abort : after (.abort 5 7) (withOp .running (opAt .clamp) (granted (jog .handling) calm))
    (fun t => t.hs.seq == .idle && t.aha == ⟨none, [], [], none⟩) = true := by decide +kernel
theorem test_manual_move_done_at_its_end : after (.manualMove 5 7 1 2 100) calm
    (fun t => reply t == some [0, 0] && t.aha.holder.isNone) = true := by decide +kernel
theorem test_diverter_interrupts : after (.diverter 5 7 2) (granted (jog .manual) calm)
    (fun t => t.aha.valve == some (.diverter, .second) && t.aha.stack.map Req.left == [some 195]) = true := by
  decide +kernel
theorem test_mark_interval_too_short : after (.markInterval 5 7) (withJob .opened 5099)
    (fun t => reply t == some [3, 17]) = true := by decide +kernel
theorem test_mark_interval_closes : after (.markInterval 5 7) (withJob .opened 5100)
    (fun t => t.dib.queue.map Entry.bottom == [5100] && t.dib.openIv.map Interval.top == some 5100) = true := by
  decide +kernel
theorem test_annotate : after (.annotate 5 7 3 250 9 9 9) (withJob .opened 5100)
    (fun t => t.dib.openIv.map (fun v => (v.lith, v.bag, v.remark, v.final)) == some (some 250, none, none, true)) = true := by
  decide +kernel
theorem test_write_tariff : after (.writeTariff 5 7 tariffWire) calm
    (fun t => (t.bu.tariffAt 1).map Tariff.bands == some [(0, 9500), (1000000, 10000000)]) = true := by decide +kernel
theorem test_open_job : after (.openJob 5 7 999999 1 0xFFFFFFFF#32)
    (calm.setBu { calm.bu with tariffs := [some tariff, none, none, none] })
    (fun t => t.bu.jobSt == .opened && t.dib.openIv.map Interval.boundary == some 1000
      && t.rws.queue.map Record.kind == [.jobOpened]) = true := by decide +kernel
theorem test_add_material : after (.addMaterial 5 7 7 15) (withJob .opened 5000)
    (fun t => t.bu.totals.mats.getD 6 0 == 15 && t.dib.openIv.map Interval.mats == some [(7, 15)]) = true := by
  decide +kernel
/-- 15 tenths at 18.50 a unit are 27.75, and one hour at 420.00 is 420.00 (R168). -/
theorem test_issue_ticket_total : after (.issueTicket 5 7)
    (let s := withJob .opened 5000
     s.setBu { s.bu with since := ⟨[0, 0], [3600, 0, 0, 0, 0, 0, 0, 0, 0, 0], [0, 0, 0, 0, 0, 0, 15, 0, 0, 0, 0, 0, 0, 0, 0, 0]⟩ })
    (fun t => t.bu.tickets.map Ticket.total == [44775]) = true := by decide +kernel
theorem test_close_job : after (.closeJob 5 7) (withJob .opened 5000)
    (fun t => t.bu.jobSt == .noJob && t.bu.tickets.map Ticket.kind == [.final] && t.dib.openIv == none) = true := by
  decide +kernel
theorem test_collect_ticket_busy : after (.collectTicket 5 7 2) (withTickets [ticket 2 none] calm)
    (fun t => reply t == some [3, 5]) = true := by decide +kernel
theorem test_unknown_kind : after (.unknownKindRequest 5 7 0x30 []) calm
    (fun t => t.lc.tx.map TxFrame.frame == some ⟨0x80#8, 7, [3, 1]⟩) = true := by decide +kernel
/-- A framing error moves the trial rate on, 230,400 wrapping to 9,600 (R176). -/
theorem test_hunt_byte_wraps : after (.huntByte 5 0xA5 true)
    (calm.setLc { calm.lc with locked := false, trial := .r230400 }) (fun t => t.lc.trial == .r9600) = true := by
  decide +kernel
theorem test_switch_taken : after (.switchChangeTaken 20 .pitHigh)
    (calm.setSfe { calm.sfe with
      raw := atEase ||| switchMask .pitHigh, stab := calm.sfe.stab.set 12 (some 20) })
    (fun t => t.on .pitHigh) = true := by decide +kernel
theorem test_switch_not_yet : after (.switchChangeTaken 19 .pitHigh)
    (calm.setSfe { calm.sfe with
      raw := atEase ||| switchMask .pitHigh, stab := calm.sfe.stab.set 12 (some 20) })
    (fun t => !t.on .pitHigh) = true := by decide +kernel
theorem test_stroke_starts_the_pump : after (.strokePulse 5 .one) calm
    (fun t => t.cm.pump1.st == .starting && t.cm.pump1.gap == some 20000 && t.cm.mon == .settling) = true := by
  decide +kernel
theorem test_encoder_step : after (.headEncoderStep 5 .up)
    (calm.setSfe { calm.sfe with enc := .good, head := some 7500 })
    (fun t => t.sfe.enc == .fault .range && t.sfe.head == some 7500) = true := by decide +kernel
/-- (5,200 - 200) x 4,000 / 10,000 (R9). -/
theorem test_sample : after (.analogueSample 100 5200 0 0) calm
    (fun t => t.sfe.pit == ⟨.good, some 2000, 0⟩ && t.sfe.press.st == .faulted) = true := by decide +kernel
theorem test_second_tick_opens_a_window : after (.secondTick 1000) calm
    (fun t => t.tps.clock == 1 && t.cm.win.map Window.left == some 5 && t.bu.category == .standby) = true := by
  decide +kernel
/-- Four strokes of 8,000 mL at 950 per mille (R22). -/
theorem test_window_close : after (.windowClose 0)
    (calm.setCm { calm.cm with win := some ⟨calm.force, 0, 4, false, 0, false, 30, 0⟩ })
    (fun t => t.cm.cum == 30400 && t.cm.lastWin.map WinRec.d == some (-400)) = true := by decide +kernel
theorem test_motion_timeout : after (.motionTimeout 200) (granted (jog .manual) calm)
    (fun t => t.aha.holder.isNone && t.lc.notices.any (fun n => n.detail == some (.jogDone .clamp .first .jogEnd))) = true := by
  decide +kernel
theorem test_erase : after (.eraseComplete 350) (writing (write .queue 0 0 none) (.erasing 31) 350)
    (fun t => t.rws.wst == .programming && t.rws.sectors.getD 31 .reErase == .erased) = true := by decide +kernel
theorem test_block_programmed : after (.blockProgramComplete 2) (writing (write .queue 1 0 none) .programming 2)
    (fun t => t.rws.wst == .verifying && t.rws.queue.isEmpty && t.rws.head == 12) = true := by decide +kernel
theorem test_void_rewrites : after (.voidComplete 2) (writing (write .slot 2 0 (some .failure)) .programming 2)
    (fun t => t.rws.write.map Write.attempts == some 1) = true := by decide +kernel
theorem test_scan_of_an_erased_store : after (.coldStartScanEnd 0 []) State.reset
    (fun t => t.rws.accepting && t.rws.head == 0 && t.rws.nextSeq == 1 && t.tps.phase == .startUp) = true := by
  decide +kernel
theorem test_power_fail : after (.powerFailWarning 5) (withOp .running (opAt .clamp) (granted (jog .handling) calm))
    (fun t => t.tps.phase == .off && t.hs.seq == .interrupted && t.aha.valve == none) = true := by decide +kernel
theorem test_power_up_cold : after (.powerUp 0 60 false)
    (calm.setTps { calm.tps with phase := .off }) (fun t => t.tps.clock == 0 && t.tps.startKind == .cold) = true := by
  decide +kernel
theorem test_power_up_warm : after (.powerUp 0 60 true)
    (calm.setTps { calm.tps with phase := .off }) (fun t => t.tps.clock == 60 && t.tps.startKind == .warm) = true := by
  decide +kernel

end Sys2Proof.Tests
end

section
/-! PROOFS. Rig signals and watch groups: reset, the reads, the presets and SET WATCH. -/

namespace Sys2Proof.Machine

/-- Settles O3, block by block: each field of `State.reset` is its block's reset value. -/
theorem resetIsTheColdState : Obligations.ResetIsTheColdState := by
  unfold Obligations.ResetIsTheColdState
  and_intros <;> rfl

/-! ## Reads that change nothing -/

section
variable {s : State} {dt : Nat} {tag : Byte}

/-- A request that is taken in start-up too, and that its owner answers with no change (R181, R195). -/
theorem requestRow_read {r : Request} {rep : Reply} (h : s.listens) (hr : takenInStartUp r = true)
    (e : own r (s.heard dt) = (s.heard dt, rep)) :
    requestRow dt tag r s = (s.heard dt).answering tag r rep := by
  obtain ⟨⟨hp, hn⟩, hl⟩ := h
  refine requestRow_of_deal hp hl ?_ (by simpa using hn) (heard_free hl)
  simpa [deal, hr] using e

end

/-- The parameter that GET PARAMETER shows, by the number's byte (R53, R108, R188). -/
theorem reported_toNat (n : Byte) (s : State) : s.reported n.toNat =
    if n = 21 then (s.rrc.index : Int) else if n = 24 then s.dib.offset else s.param n.toNat := by
  have key : ∀ k : Byte, n.toNat = k.toNat ↔ n = k := fun k => (BitVec.toNat_inj)
  simp only [State.reported, ← key]
  rfl

@[simp] theorem tallyReply_status (items : List (Nat × List Byte)) (s : State) :
    (tallyReply items s).status = .done := rfl

/-- A view's reply is DONE exactly where its starting point is in range. -/
theorem ite_tallyReply_done {c : Prop} [Decidable c] {items : List (Nat × List Byte)} {s : State} :
    (if c then tallyReply items s else .refuse .range).status = .done ↔ c := by
  split <;> simp [Reply.refuse, *]

section
variable (x : BitVec 48) (s : State)

/-- The view of one rod, by its serial (R61). -/
theorem readTally_rod : readTally 1 x s =
    if !serialValid x then .refuse .range
    else match s.rrc.find x with
      | none => .refuse .unknownRod
      | some i => tallyReply (match s.rrc.rod i with | some rod => [(i, rod.bytes i)] | none => []) s :=
  rfl

theorem readTally_rod_done : (readTally 1 x s).status = .done ↔
    serialValid x = true ∧ (s.rrc.find x).isSome = true := by
  rw [readTally_rod]
  cases serialValid x <;> cases s.rrc.find x <;> simp [Reply.refuse]

/-- The view of the registry, from an entry number on. -/
theorem readTally_registry_done : (readTally 2 x s).status = .done ↔ x.toNat < 160 :=
  ite_tallyReply_done

/-- The view of the string, from a position on. -/
theorem readTally_string_done : (readTally 3 x s).status = .done ↔ 1 ≤ x.toNat ∧ x.toNat ≤ 128 := by
  refine Iff.trans ite_tallyReply_done ?_
  simp only [Bool.and_eq_true, decide_eq_true_eq]
  rfl

/-- The view of the carousel, from a slot on. -/
theorem readTally_slots_done : (readTally 4 x s).status = .done ↔ x.toNat < 40 := ite_tallyReply_done

end

/-- Settles O15: each read is taken at any time, and its owner's reply is the one stated. -/
theorem readsOfTheRigAnswerDone : Obligations.ReadsOfTheRigAnswerDone := by
  intro dt tag s hs h
  refine ⟨congrArg _ (requestRow_read hs rfl rfl), fun n => congrArg _ (requestRow_read hs rfl ?_),
    congrArg _ (requestRow_read hs rfl rfl), fun p => congrArg _ (requestRow_read hs rfl ?_),
    fun view x => congrArg _ (requestRow_read hs rfl rfl), fun x => ⟨fun hv => ?_, fun hv hf => ?_, ?_,
    readTally_registry_done x h, readTally_string_done x h, readTally_slots_done x h⟩⟩
  · show (_, getParameter n.toNat h) = _
    unfold getParameter
    rw [reported_toNat]
    simp only [h, heard_rrc, heard_dib, State.param, heard_params]
    cases paramRange n.toNat <;> rfl
  · have h0 : p.toNat = 0 ↔ p = 0 := BitVec.toNat_inj (y := 0)
    have h1 : p.toNat = 1 ↔ p = 1 := BitVec.toNat_inj (y := 1)
    show ownReadBalance p.toNat h = _
    simp only [ownReadBalance, refused, h0, h1]
    split <;> [rfl; (split <;> rfl)]
  · rw [readTally_rod, hv]; rfl
  · have hf : h.rrc.find x = none := by simpa [h] using hf
    rw [readTally_rod, hv, hf]; rfl
  · simpa [h] using readTally_rod_done x h

end Sys2Proof.Machine
end

section
namespace Sys2Proof.Machine

/-! ## SET WATCH -/

/-- Group 3 after a write that raises nothing else than its event. -/
theorem ownSetWatch_eq (sel pat : SwitchSet) (s : State) :
    ownSetWatch sel pat s =
      let m := (s.sfe.debounced ^^^ pat) &&& sel
      let g := s.setSfe { s.sfe with g3 := ⟨sel, pat &&& sel, m, s.sfe.g3.flag || m != 0⟩ }
      (if m = 0 then g else g.raise (.groupMismatch m s.sfe.ms), .ok) := by
  simp only [ownSetWatch, writeGroup, mismatchOf, State.setGroup, State.group, done, bne_iff_ne, ne_eq,
    ite_not]
  rfl

/-- Settles O22: the write of group 3 and its event leave the link free. -/
theorem setWatchWritesGroupThree : Obligations.SetWatchWritesGroupThree := by
  intro dt tag sel pat s hs h m g
  have e : own (.setWatch sel pat) h = (if m = 0 then g else g.raise (.groupMismatch m h.sfe.ms), .ok) := by
    show ownSetWatch sel pat h = _
    rw [ownSetWatch_eq]
    simp only [g, m, h, State.heard, State.setLc_sfe, State.elapse_sfe_g3]
  refine congrArg _ (requestRow_of_own hs e ?_ ?_)
  · split <;> simpa [g, h] using hs.2.1
  · have hl : g.lc.free := heard_free hs.2.2
    split
    · exact hl
    · exact hl

/-! ## What the builder's operations leave -/

/-- The blocks that no operation of the builder writes: the front end, the monitor, the arbiter, the
sequencer, the supervisor, the parameters and what is handed on. -/
def State.offBuilder (s : State) : Sfe × Cm × Aha × Hs × Tps × List Int × List Report :=
  (s.sfe, s.cm, s.aha, s.hs, s.tps, s.params, s.reports)

section
variable (s : State)

@[simp] theorem setRrc_offBuilder (x : Rrc) : (s.setRrc x).offBuilder = s.offBuilder := rfl
@[simp] theorem setDib_offBuilder (x : Dib) : (s.setDib x).offBuilder = s.offBuilder := rfl
@[simp] theorem setRws_offBuilder (x : Rws) : (s.setRws x).offBuilder = s.offBuilder := rfl
@[simp] theorem setBu_offBuilder (x : Bu) : (s.setBu x).offBuilder = s.offBuilder := rfl
@[simp] theorem raise_offBuilder (d : Detail) : (s.raise d).offBuilder = s.offBuilder := rfl

/-- A fold of operations that leave a part of the state leaves it. -/
theorem foldl_leaves {α β : Type} (p : State → β) {f : State → α → State}
    (hf : ∀ t a, p (f t a) = p t) (l : List α) : p (l.foldl f s) = p s := by
  induction l generalizing s with
  | nil => rfl
  | cons a l ih => exact (ih _).trans (hf s a)

@[simp] theorem wearOut_offBuilder (i : Nat) (c : WornCause) :
    (wearOut i c s).offBuilder = s.offBuilder := by
  unfold wearOut; split <;> rfl

@[simp] theorem testDistance_offBuilder (i : Nat) : (testDistance i s).offBuilder = s.offBuilder := by
  fun_cases testDistance i s <;> simp

@[simp] theorem drilledDistance_offBuilder (x : Nat) :
    (drilledDistance x s).offBuilder = s.offBuilder :=
  (foldl_leaves _ _ (fun t i => testDistance_offBuilder t i) _).trans
    (foldl_leaves _ _ (f := fun t i => addDistance x i t) (fun _ _ => rfl) _)

@[simp] theorem accrueFootage_offBuilder (a b : Nat) :
    (accrueFootage a b s).offBuilder = s.offBuilder := by
  unfold accrueFootage; split <;> rfl

theorem handOver_offBuilder (kind : RKind) (job : Nat) (body : List Byte) (fresh : Bool)
    (item : Option Nat) : (handOver kind job body fresh item s).1.offBuilder = s.offBuilder := by
  fun_cases handOver kind job body fresh item s <;> simp

theorem commitHead_offBuilder : (commitHead s).1.offBuilder = s.offBuilder := by
  unfold commitHead
  split
  · rfl
  · simp only []
    split <;> exact handOver_offBuilder s _ _ _ _ _

theorem testHeads_offBuilder (n : Nat) : (testHeads n s).offBuilder = s.offBuilder := by
  induction n generalizing s with
  | zero => rfl
  | succ n ih =>
    unfold testHeads
    split
    · rfl
    · split
      · simp only []
        split
        · rw [ih, commitHead_offBuilder]
        · exact commitHead_offBuilder s
      · rfl

@[simp] theorem makeRoom_offBuilder : (makeRoom s).1.offBuilder = s.offBuilder := by
  fun_cases makeRoom s with
  | case1 => rfl
  | case2 => rfl
  | case3 => exact (testHeads_offBuilder _ _).trans (commitHead_offBuilder s)

@[simp] theorem openInterval_offBuilder (top : Nat) : (openInterval top s).offBuilder = s.offBuilder := rfl

@[simp] theorem closeInterval_offBuilder (goOn : Bool) (bottom : Nat) :
    (closeInterval goOn bottom s).offBuilder = s.offBuilder := by
  unfold closeInterval
  split
  · rfl
  · cases goOn <;> rfl

@[simp] theorem testBoundary_offBuilder : (testBoundary s).offBuilder = s.offBuilder := by
  unfold testBoundary
  split
  · rfl
  · split
    · rfl
    · simp only []
      split <;> simp

@[simp] theorem testHwm_offBuilder : (testHwm s).offBuilder = s.offBuilder := by
  unfold testHwm; split <;> simp

@[simp] theorem recompute_offBuilder : (recompute s).offBuilder = s.offBuilder := by
  unfold recompute takeDepth; split <;> simp

@[simp] theorem enterLive_offBuilder : (enterLive s).offBuilder = s.offBuilder := by
  fun_cases enterLive s <;> simp [takeDepth]

@[simp] theorem decideDepth_offBuilder : (decideDepth s).offBuilder = s.offBuilder := by
  unfold decideDepth
  simp only []
  split
  · rfl
  · split <;> simp

end

section
variable {s t : State} (h : t.offBuilder = s.offBuilder)
include h

theorem hs_of_offBuilder : t.hs = s.hs := congrArg (·.2.2.2.1) h
theorem reports_of_offBuilder : t.reports = s.reports := congrArg (·.2.2.2.2.2.2) h

end

/-! ## The presets -/

/-- The change of the encoder to GOOD, at the builder (R107). -/
theorem dibEncoder_none (s : State) : dibEncoder none s =
    let w := decideDepth (s.setDib { s.dib with encFaulted := false, headLast := s.sfe.head })
    w.raise (.depthFault none w.dib.depth w.dib.dstate) := rfl

theorem indexStands_eq_false {a : Aha} : a.indexStands = false ↔ ∀ q ∈ a.standing, q.fn ≠ .index := by
  simp [Aha.indexStands]

/-- What an operation of the blocks keeps of the line, for the end of CLEAR ALL (R189). -/
theorem Keeps.clearing {s t : State} (h : Keeps s t) : t.lc.clearing = s.lc.clearing :=
  by have e := congrArg Lc.clearing h.line; exact e

/-- And of the link at rest (R179, R180). -/
theorem Keeps.free {s t : State} (h : Keeps s t) (hf : s.lc.free) : t.lc.free := by
  have e := congrArg (fun l : Lc => (l.locked, l.tx, l.built, l.rx, l.holdTake, l.clearing)) h.line
  simp only [Prod.mk.injEq] at e
  simpa [Lc.free, e] using hf

/-- Settles O18: each preset is refused, or its owner's state is the one stated. -/
theorem presetsActOrAreRefusedState : Obligations.PresetsActOrAreRefusedState := by
  intro dt tag v s hs h rep
  refine ⟨?_, ?_, ?_⟩
  · intro x p w u
    show Host.Outcome.next (requestRow dt tag (.setParameter 17 v) s) = _
    refine congrArg _ ?_
    split
    · rename_i he
      refine requestRow_unchanged hs ?_
      show ownHeadPreset v.toInt h = _
      simp [ownHeadPreset, h, State.heard, he, refused]
    · rename_i he
      have he' : h.sfe.enc ≠ .good := by simpa [h, State.heard] using he
      have e : own (.setParameter 17 v) h = (u, rep x) := by
        show ownHeadPreset v.toInt h = _
        rw [ownHeadPreset, if_neg he']
        simp only [dibEncoder_none, u, w, p, h, State.storeParam, State.setSfe_dib, State.setParams_dib,
          heard_dib, heard_params]
        rfl
      have k : Keeps (p.setSfe { p.sfe with head := some x.toNat, enc := .good }) u :=
        settle_keeps (hsHead_keeps (decideDepth_keeps (Keeps.refl _).setDib).raise)
      exact requestRow_replying_own hs e (k.clearing.trans (heard_free hs.2.2).2.2.2.2.2)
  · intro x
    show Host.Outcome.next (requestRow dt tag (.setParameter 21 v) s) = _
    refine congrArg _ ?_
    have e : own (.setParameter 21 v) h = ownIndexPreset v.toInt h := rfl
    rw [ownIndexPreset] at e
    split
    · rename_i hc
      have hi : h.aha.indexStands = false := indexStands_eq_false.2 hc.2
      simp only [hc.1, hi, Bool.not_false, Bool.and_self, if_true] at e
      exact requestRow_of_own hs (e.trans (by simp [h, PRange.clamp, x]; rfl))
        (by simpa [h] using hs.2.1) (heard_free hs.2.2)
    · rename_i hc
      have hc' : ¬(h.on .indexLocked && !h.aha.indexStands) = true := by
        simpa [← indexStands_eq_false] using hc
      simp only [hc'] at e
      exact requestRow_unchanged hs e
  · intro x
    show Host.Outcome.next (requestRow dt tag (.setParameter 24 v) s) = _
    refine congrArg _ ?_
    have e : own (.setParameter 24 v) h = ownDepthOffset v.toInt h := rfl
    simp only [ownDepthOffset, show h.bu = s.bu from heard_bu] at e
    split
    · rename_i hj
      simp only [hj, if_true] at e
      have k := recompute_keeps (Keeps.refl (h.setDib { s.dib with offset := x }))
      refine requestRow_of_own hs (e.trans (by simp [h, PRange.clamp, x]; rfl)) ?_
        (k.free (heard_free hs.2.2))
      rw [reports_of_offBuilder (recompute_offBuilder _)]
      simpa [h] using hs.2.1
    · rename_i hj
      simp only [hj, if_false] at e
      exact requestRow_unchanged hs e

end Sys2Proof.Machine
end

section
/-! PROOFS. Rig signals and watch groups: pulses and analogue samples. -/

namespace Sys2Proof.Machine

/-! ## Events, and what the passing of time leaves in the monitor -/

section
variable {s t : State} {dt : Nat} {f : State → State}

/-- An event while the part runs: what it does, and the end of the step. -/
theorem event_finish (h : s.awake) (e : f (s.elapse dt) = t) : event dt f s = finish t := by
  rw [event_of_on h.1, e]

/-- An event that hands nothing on ends with the transmitter (log 7). -/
theorem event_quiet (h : s.awake) (e : f (s.elapse dt) = t) (ht : t.reports = s.reports) :
    event dt f s = lcService t := by
  rw [event_finish h e, finish_of_nil (ht.trans h.2)]

end

section
variable (dt : Nat) (s : State)

@[simp] theorem elapse_cm_entryVol : (s.elapse dt).cm.entryVol = s.cm.entryVol := by
  unfold State.elapse; split <;> rfl
@[simp] theorem elapse_cm_pitSum : (s.elapse dt).cm.pitSum = s.cm.pitSum := by
  unfold State.elapse; split <;> rfl
@[simp] theorem elapse_cm_pitCount : (s.elapse dt).cm.pitCount = s.cm.pitCount := by
  unfold State.elapse; split <;> rfl
@[simp] theorem elapse_cm_capSum : (s.elapse dt).cm.capSum = s.cm.capSum := by
  unfold State.elapse; split <;> rfl
@[simp] theorem elapse_cm_capCount : (s.elapse dt).cm.capCount = s.cm.capCount := by
  unfold State.elapse; split <;> rfl
@[simp] theorem elapse_now : (s.elapse dt).now = s.now := by simp [State.now]
@[simp] theorem elapse_pFlowAllowance : (s.elapse dt).pFlowAllowance = s.pFlowAllowance := by
  simp [State.pFlowAllowance, State.paramNat, State.param]

end

/-! ## Groups disarmed -/

/-- A group that is disarmed keeps its flag alone (R14). -/
theorem disarmGroup_eq (n : GroupNo) (s : State) :
    disarmGroup n s = s.setGroup n ⟨0, 0, 0, (s.group n).flag⟩ := by
  have hm : mismatchOf s.sfe.debounced 0 0 = 0 := BitVec.and_zero
  simp only [disarmGroup, writeGroup, hm]
  simp

/-! ## The monitor at a return pulse -/

/-- A hole-watch entry that aborts (R37). -/
theorem abortEntry_eq (cause : AbortCause) (s : State) : abortEntry cause s =
    hsMonitor (((s.setSfe { s.sfe with g2 := ⟨0, 0, 0, s.sfe.g2.flag⟩ }).setCm
      { s.cm with
        mon := .idle, span := [], secPulses := 0, capTimer := none, capSum := 0, capCount := 0
        entryVol := 0 }).raise (.entryAborted cause)) := by
  rw [abortEntry, disarmGroup_eq]; rfl

/-- A flow check that fails (R32). -/
theorem failCheck_eq (s : State) : failCheck s =
    hsMonitor (setLatch .gain .flowCheck (s.cm.fcVol : Nat) ((s.setCm
      { s.cm with
        mon := .idle, span := [], secPulses := 0, fcResult := .failed, fcSecond := some s.now
        fcVolume := some s.cm.fcVol, fcTimer := none }).raise (.flowCheck .failed s.now s.cm.fcVol))) :=
  rfl

/-- A return pulse counted, and joined to the window in progress (R4, R21). -/
def State.returned (s : State) : State :=
  (s.setSfe { s.sfe with retCount := countUp s.sfe.retCount }).setCm
    { s.cm with win := s.cm.win.map (fun w : Window => { w with returns := w.returns + 1 }) }

section
variable {s : State} (ha : s.sfe.acquisitionEnded = true)
include ha

theorem takeReturn_of_circulating (h : s.cm.mon = .settling ∨ s.cm.mon = .watching) :
    takeReturn s = s.returned := by
  rcases h with h | h <;> simp [takeReturn, ha, cmReturn, h, State.returned]

theorem takeReturn_of_watched (h : s.cm.mon = .idle ∨ s.cm.mon = .holeWatch) :
    takeReturn s = s.returned.setCm { s.returned.cm with secPulses := s.cm.secPulses + 1 } := by
  rcases h with h | h <;> simp [takeReturn, ha, cmReturn, h, State.returned]

theorem takeReturn_of_flowCheck (h : s.cm.mon = .flowCheck) : takeReturn s =
    let v := s.cm.fcVol + s.inForce.k
    let u := s.returned.setCm { s.returned.cm with fcVol := v }
    if s.pFlowAllowance < v then failCheck u else u := by
  rw [takeReturn, if_pos ha, cmReturn]
  split
  case h_1 => rfl
  all_goals (rename_i e; cases h.symm.trans e)

theorem takeReturn_of_watchEntry (h : s.cm.mon = .watchEntry) : takeReturn s =
    let v := s.cm.entryVol + s.inForce.k
    let u := s.returned.setCm { s.returned.cm with entryVol := v }
    if s.pFlowAllowance < v then abortEntry .returnFlow u else u := by
  rw [takeReturn, if_pos ha, cmReturn]
  split
  case h_2 => rfl
  all_goals (rename_i e; cases h.symm.trans e)

end

/-- Settles O49: each pulse by the row's function, and the return pulse by the monitor's state. -/
theorem pulsesAreCounted : Obligations.PulsesAreCounted := by
  intro dt s hs h
  rw [show s.sfe.acquisitionEnded = h.sfe.acquisitionEnded by simp [h],
    show s.sfe.rotCount = h.sfe.rotCount by simp [h], show s.sfe.retCount = h.sfe.retCount by simp [h],
    show s.sfe.g2 = h.sfe.g2 by simp [h], show s.cm.mon = h.cm.mon by simp [h],
    show s.cm.win = h.cm.win by simp [h], show s.cm.secPulses = h.cm.secPulses by simp [h],
    show s.cm.fcVol = h.cm.fcVol by simp [h], show s.cm.entryVol = h.cm.entryVol by simp [h],
    show s.pFlowAllowance = h.pFlowAllowance by simp [h], show s.tps.clock = h.now by simp [h, State.now]]
  have quiet : ∀ {f : State → State} {u : State}, f h = u → u.reports = h.reports →
      Host.Outcome.next (ρ := Refusal) (φ := Fault) (event dt f s) = .next (lcService u) :=
    fun e he => congrArg _ (event_quiet hs e (he.trans (by simp [h])))
  have loud : ∀ {f : State → State} {u : State}, f h = u →
      Host.Outcome.next (ρ := Refusal) (φ := Fault) (event dt f s) = .next (finish u) :=
    fun e => congrArg _ (event_finish hs e)
  refine ⟨fun ha => ⟨?_, ?_⟩, fun ha => ?_, fun k hk => ?_, fun ha => ?_⟩
  · exact quiet (f := takeRotation) (if_neg (by simp [ha])) rfl
  · exact quiet (f := takeReturn) (if_neg (by simp [ha])) rfl
  · exact loud (f := takeRotation) (if_pos ha)
  · refine quiet ?_ (by split <;> rfl)
    simp [Timer.over, hk]
  · intro t c k
    refine ⟨fun g => quiet (takeReturn_of_circulating ha g) rfl,
      fun g => quiet (takeReturn_of_watched ha g) rfl, fun g => ⟨fun hv => ?_, fun hv => ?_⟩,
      fun g => ⟨fun hv => ?_, fun hv => ?_⟩⟩
    · exact quiet ((takeReturn_of_flowCheck ha g).trans (if_neg (by omega))) rfl
    · exact loud ((takeReturn_of_flowCheck ha g).trans ((if_pos hv).trans (failCheck_eq _)))
    · exact quiet ((takeReturn_of_watchEntry ha g).trans (if_neg (by omega))) rfl
    · exact loud ((takeReturn_of_watchEntry ha g).trans ((if_pos hv).trans (abortEntry_eq _ _)))

end Sys2Proof.Machine
end

section
/-! PROOFS. Rig signals and watch groups: analogue samples. -/

namespace Sys2Proof.Machine

/-! ## One input -/

theorem goodValue_in {span p : Nat} (h : 200 ≤ p ∧ p ≤ 10200) :
    goodValue span p = some ((p - 200) * span / 10000) := if_pos h
theorem goodValue_out {span p : Nat} (h : ¬(200 ≤ p ∧ p ≤ 10200)) : goodValue span p = none := if_neg h

/-- SENSOR FAULT where a sample raises it (R10, R11), with the input as it then stands. -/
def State.noted (i : AInput) (y : Analogue × Option Bool) (s : State) : State :=
  sensorFault i y.1 y.2 s

theorem noted_of_none {i : AInput} {y : Analogue × Option Bool} {s : State} (h : y.2 = none) :
    s.noted i y = s := by
  simp only [State.noted, sensorFault, h]

section
variable {a : Analogue}

theorem sample_of_acquiring (h : a.st = .acquiring) (x : Nat) :
    a.sample (some x) = (⟨.good, some x, 0⟩, none) ∧ a.sample none = (⟨.faulted, none, 0⟩, some true) := by
  simp [Analogue.sample, h]

theorem sample_of_good (h : a.st = .good) (x : Nat) :
    a.sample (some x) = (⟨.good, some x, 0⟩, none)
      ∧ a.sample none = (⟨.faulted, a.value, 0⟩, some true) := by
  simp [Analogue.sample, h]

theorem sample_of_faulted (h : a.st = .faulted) (x : Nat) :
    a.sample none = (⟨.faulted, a.value, 0⟩, none)
      ∧ (a.goods < 2 → a.sample (some x) = (⟨.faulted, a.value, a.goods + 1⟩, none))
      ∧ (2 ≤ a.goods → a.sample (some x) = (⟨.good, some x, 0⟩, some false)) := by
  refine ⟨by simp [Analogue.sample, h], fun g => ?_, fun g => ?_⟩
  · simp [Analogue.sample, h, g]
  · simp [Analogue.sample, h, Nat.not_lt.2 g]

end

/-! ## The readers -/

section
variable {s : State} {v : Nat}

/-- A good pit level at the monitor (R36, R38). -/
theorem cmPit_of_good (h : s.sfe.pit = ⟨.good, some v, 0⟩) : cmPit s =
    if s.cm.mon = .watchEntry then s.setCm
      { s.cm with
        pitSum := s.cm.pitSum + v, pitCount := s.cm.pitCount + 1
        capSum := s.cm.capSum + v, capCount := s.cm.capCount + 1 }
    else s.setCm { s.cm with pitSum := s.cm.pitSum + v, pitCount := s.cm.pitCount + 1 } := by
  rw [cmPit, h]
  exact apply_ite s.setCm _ _ _

/-- The hole-watch entry that a faulted pit level aborts, the second's mean spoiled (R35, R37, R38). -/
def State.pitAborted (s : State) : State :=
  hsMonitor (((s.setSfe { s.sfe with g2 := ⟨0, 0, 0, s.sfe.g2.flag⟩ }).setCm
    { s.cm with
      pitBad := true, mon := .idle, span := [], secPulses := 0, capTimer := none, capSum := 0
      capCount := 0, entryVol := 0 }).raise (.entryAborted .pitFault))

/-- A faulted pit level at the monitor. -/
theorem cmPit_of_faulted (h : s.sfe.pit.st = .faulted) : cmPit s =
    if s.cm.mon = .watchEntry then s.pitAborted else s.setCm { s.cm with pitBad := true } := by
  have hf : s.sfe.pit.isFaulted = true := by simp [Analogue.isFaulted, h]
  simp only [cmPit, hf, abortEntry_eq, State.pitAborted]
  rfl

theorem deliverPressure_of_not (h : s.sfe.press.st ≠ .good ∨ s.bu.category ≠ .drilling) :
    deliverPressure s = s := by
  unfold deliverPressure
  split
  · rename_i hf _
    have hg : s.sfe.press.st = .good := by simpa [Analogue.isFaulted] using hf
    exact if_neg (h.resolve_left (fun n => n hg))
  · rfl

theorem deliverPressure_of_good (h : s.sfe.press.st = .good) (hv : s.sfe.press.value = some v)
    (hc : s.bu.category = .drilling) : deliverPressure s = s.setDib
      { s.dib with
        openIv := s.dib.openIv.map (fun iv => { iv with
          pSum := iv.pSum + v, pCount := min (iv.pCount + 1) 4294967295 }) } := by
  have hf : s.sfe.press.isFaulted = false := by simp [Analogue.isFaulted, h]
  rw [deliverPressure, hf, hv]
  exact if_pos hc

end

/-- Settles O51: the sample's effect is that of the pit level's reader, as the level stands. -/
theorem samplesMoveTheInputs : Obligations.SamplesMoveTheInputs := by
  refine ⟨fun span p => ⟨goodValue_in, goodValue_out⟩, fun a x => ⟨fun h => sample_of_acquiring h x,
    fun h => sample_of_good h x, fun h => sample_of_faulted h x⟩, ?_⟩
  intro dt p q r s hs h
  rw [show s.sfe.pit = h.sfe.pit by simp [h], show s.sfe.press = h.sfe.press by simp [h],
    show s.sfe.torque = h.sfe.torque by simp [h], show s.sfe.g2 = h.sfe.g2 by simp [h],
    show s.cm.mon = h.cm.mon by simp [h], show s.cm.pitSum = h.cm.pitSum by simp [h],
    show s.cm.pitCount = h.cm.pitCount by simp [h], show s.cm.capSum = h.cm.capSum by simp [h],
    show s.cm.capCount = h.cm.capCount by simp [h]]
  intro c x y z t aborted
  have due : h.sfe.sampleTimer = some 0 →
      c = .next (finish (hsTorque (deliverPressure (cmPit
        (((t.noted .pitLevel x).noted .pumpPressure y).noted .headTorque z))))) := fun g =>
    congrArg Host.Outcome.next (event_finish hs (if_pos (by simpa [Timer.over] using g)))
  have calm : h.sfe.sampleTimer = some 0 → y.2 = none → z.2 = none → ∀ {u w : State},
      t.noted .pitLevel x = u → cmPit u = w → c = .next (finish (hsTorque (deliverPressure w))) := by
    intro g hy hz u w hu hw
    rw [due g, noted_of_none hz, noted_of_none hy, hu, hw]
  refine ⟨fun g => ?_, fun g => ?_, fun v g hx hy hz hv hm => ?_, fun v g hx hy hz hv hm => ?_,
    fun g hx hy hz hv => ⟨fun hm => ?_, fun hm => ?_⟩, fun v g hst hv hb hy hz => ?_, fun u => ⟨?_, ?_⟩⟩
  · exact congrArg Host.Outcome.next (event_quiet hs (if_neg (by simpa [Timer.over] using g))
      (State.elapse_reports dt s))
  · intro noted
    have e : ∀ i y u, noted i y u = u.noted i y := by
      intro i y u
      simp only [noted, State.noted, sensorFault]
      cases y.2 <;> rfl
    simp only [e]
    exact due g
  · exact calm g hy hz (noted_of_none hx) ((cmPit_of_good hv).trans (if_neg hm))
  · exact calm g hy hz (noted_of_none hx) ((cmPit_of_good hv).trans (if_pos hm))
  · exact calm g hy hz (noted_of_none hx) ((cmPit_of_faulted hv).trans (if_neg hm))
  · exact calm g hy hz (noted_of_none hx) ((cmPit_of_faulted hv).trans (if_pos hm))
  · intro u
    have hx : x = (⟨.faulted, v, 0⟩, some true) := by
      simp only [x, hb, (sample_of_good hst 0).2, hv]
    have hu : t.noted .pitLevel x = u := by rw [State.noted, hx]; rfl
    have hp : u.sfe.pit.st = .faulted := by
      show x.1.st = _
      rw [hx]
    exact ⟨fun hm => calm g hy hz hu ((cmPit_of_faulted hp).trans (if_neg hm)),
      fun hm => calm g hy hz hu ((cmPit_of_faulted hp).trans (if_pos hm))⟩
  · exact deliverPressure_of_not
  · exact fun v => deliverPressure_of_good

end Sys2Proof.Machine
end

section
/-! PROOFS. Rig signals and watch groups: the head encoder and the rise of the high-water mark. -/

namespace Sys2Proof.Machine

/-! ## The encoder -/

theorem takeEncoder_of_fault {s : State} {d : EncoderStep} (h : s.sfe.enc ≠ .good) :
    takeEncoder d s = s := by
  unfold takeEncoder
  split
  · contradiction
  · rfl

section
variable {s : State} {x : Nat} (he : s.sfe.enc = .good) (hx : s.sfe.head = some x)
include he hx

theorem takeEncoder_both : takeEncoder .both s = encoderFault .quadrature s := by
  simp [takeEncoder, he, hx]
theorem takeEncoder_up : takeEncoder .up s =
    if x < 7500 then newHead (x + 1) s else encoderFault .range s := by
  simp [takeEncoder, he, hx]; rfl
theorem takeEncoder_down : takeEncoder .down s =
    if 0 < x then newHead (x - 1) s else encoderFault .range s := by
  simp [takeEncoder, he, hx]

end

/-! ## Footage by bands -/

/-- The overlap of the span with one band: up to the next band's bound, or open (R150). -/
theorem getElem?_bandParts (a b : Nat) (l : List Nat) (i : Nat) :
    (bandParts a b l)[i]? = l[i]?.map (fun x => match l[i + 1]? with
      | some y => min b y - max a x
      | none => b - max a x) := by
  fun_induction bandParts a b l generalizing i with
  | case1 => simp
  | case2 x => cases i <;> simp
  | case3 x y rest ih =>
    cases i with
    | zero => simp
    | succ i => simpa using ih i

/-- Footage accrued to the bands (R150). -/
theorem addFootage_bandParts (h0 h1 : Nat) (bands : List (Nat × Nat)) (l : List Nat) :
    l.zipWith addTop32 (bandParts h0 h1 (bands.map Prod.fst)) =
      (l.take bands.length).mapIdx (fun i n => min (n + (match bands[i]?, bands[i + 1]? with
        | some a, some b => min h1 b.1 - max h0 a.1
        | some a, none => h1 - max h0 a.1
        | none, _ => 0)) 4294967295) := by
  refine List.ext_getElem? fun i => ?_
  simp only [List.getElem?_zipWith, getElem?_bandParts, List.getElem?_mapIdx, List.getElem?_take,
    List.getElem?_map]
  by_cases hi : i < bands.length
  · cases l[i]? <;> cases bands[i + 1]? <;> simp [hi, addTop32, Config.top32]
  · simp [hi]

/-! ## Drilled distance -/

/-- A rod that has gained a drilled distance (R49). -/
def Rod.drilled (x : Nat) (r : Rod) : Rod := { r with dist := addTop32 r.dist x }

/-- A rod's worn mark, at a limit of drilled distance (R49). -/
def Rod.worned (limit : Nat) (r : Rod) : Rod := { r with worn := r.worn || decide (limit ≤ r.dist) }

theorem Rod.worned_worned (limit : Nat) (r : Rod) : (r.worned limit).worned limit = r.worned limit := by
  rw [Rod.worned, Rod.worned, Bool.or_assoc, Bool.or_self]

/-- A rod that a limit does not wear anew. -/
theorem Rod.worned_of_not {limit : Nat} {r : Rod} (h : r.worn = true ∨ r.dist < limit) :
    r.worned limit = r := by
  have e : (r.worn || decide (limit ≤ r.dist)) = r.worn := by
    rcases h with h | h
    · simp [h]
    · simp [Nat.not_le.2 h]
  rw [Rod.worned, e]

/-- What drilled distance leaves: all but the registry and the notices. -/
def State.offRods (s : State) : Rrc × Sfe × Cm × Aha × Hs × Dib × Rws × Bu × Tps × List Int :=
  ({ s.rrc with registry := [] }, s.sfe, s.cm, s.aha, s.hs, s.dib, s.rws, s.bu, s.tps, s.params)

/-- The limit of drilled distance in mm (R49). -/
def State.distLimit (s : State) : Nat := s.pDistLimitM * 1000

section
variable (s : State) (i : Nat)

@[simp] theorem wearOut_offRods (c : WornCause) : (wearOut i c s).offRods = s.offRods := by
  unfold wearOut; split <;> rfl

@[simp] theorem testDistance_offRods : (testDistance i s).offRods = s.offRods := by
  fun_cases testDistance i s <;> simp

@[simp] theorem testDistance_distLimit : (testDistance i s).distLimit = s.distLimit :=
  congrArg (fun p : List Int => (p.getD 19 0).toNat * 1000)
    (congrArg (·.2.2.2.2.2.2.2.2.2) (testDistance_offRods s i))

theorem drilledDistance_offRods (x : Nat) : (drilledDistance x s).offRods = s.offRods :=
  (foldl_leaves _ State.offRods (fun t i => testDistance_offRods t i) _).trans
    (foldl_leaves _ State.offRods (f := fun t i => addDistance x i t) (fun _ _ => rfl) _)

/-- A rod tested against the limit of drilled distance (R49). -/
theorem testDistance_rod : (testDistance i s).rrc.rod i = (s.rrc.rod i).map (Rod.worned s.distLimit) := by
  unfold testDistance
  split
  · rename_i r hr
    split
    · rename_i hc
      have hw : r.worned s.distLimit = { r with worn := true } := by
        obtain ⟨h1, h2⟩ := by simpa using hc
        simp [Rod.worned, State.distLimit, h2]
      simp only [wearOut, hr, State.raise_rrc, State.setRrc_rrc, Rrc.rod_modRod_self, Option.map_some, hw]
    · rename_i hc
      rw [hr, Option.map_some, Rod.worned_of_not]
      by_cases hw : r.worn = true
      · exact .inl hw
      · exact .inr (by simpa [hw, State.distLimit] using hc)
  · rename_i hr; rw [hr]; rfl

theorem testDistance_rod_of_ne {j : Nat} (h : j ≠ i) : (testDistance i s).rrc.rod j = s.rrc.rod j := by
  unfold testDistance wearOut
  split
  · split
    · split
      · rfl
      · exact Rrc.rod_modRod_of_ne _ _ _ h
    · rfl
  · rfl

variable {s i}

/-- A rod that the limit does not wear anew stands as it is. -/
theorem testDistance_of_not {r : Rod} (hr : s.rrc.rod i = some r)
    (h : r.worn = true ∨ r.dist < s.distLimit) : testDistance i s = s := by
  rw [testDistance, hr]
  refine if_neg ?_
  rcases h with h | h
  · simp [h]
  · simp [Nat.not_le.2 (show r.dist < s.pDistLimitM * 1000 from h)]

theorem testDistance_of_free (hr : s.rrc.rod i = none) : testDistance i s = s := by
  rw [testDistance, hr]

/-- A rod that the limit wears has its mark set and its notice raised (R49). -/
theorem testDistance_of_worn {r : Rod} (hr : s.rrc.rod i = some r) (hw : r.worn = false)
    (h : s.distLimit ≤ r.dist) : (testDistance i s).lc =
      (s.raise (.rodWorn r.serial .distance r.conns r.dist)).lc := by
  have hc : (!r.worn && decide (s.pDistLimitM * 1000 ≤ r.dist)) = true := by
    simpa [hw, State.distLimit] using h
  rw [testDistance, hr]
  simp only [hc, if_true, wearOut, hr]
  rfl

end

/-! The two passes over the string. -/

/-- A list of rods gains a drilled distance, each once. -/
theorem foldl_addDistance_rod (x : Nat) {l : List Nat} (hl : l.Nodup) (s : State) (j : Nat) :
    (l.foldl (fun t i => addDistance x i t) s).rrc.rod j =
      if j ∈ l then (s.rrc.rod j).map (Rod.drilled x) else s.rrc.rod j := by
  induction l generalizing s with
  | nil => simp
  | cons i l ih =>
    obtain ⟨hi, hl⟩ := List.nodup_cons.1 hl
    rw [List.foldl_cons, ih hl]
    by_cases hj : j = i
    · subst hj
      simp only [hi, if_false, List.mem_cons_self, if_true]
      exact Rrc.rod_modRod_self ..
    · have e : (addDistance x i s).rrc.rod j = s.rrc.rod j := Rrc.rod_modRod_of_ne _ _ _ hj
      simp only [e, List.mem_cons, hj, false_or]

/-- A list of rods is tested against the limit. -/
theorem foldl_testDistance_rod (l : List Nat) (s : State) (j : Nat) :
    (l.foldl (fun t i => testDistance i t) s).rrc.rod j =
      if j ∈ l then (s.rrc.rod j).map (Rod.worned s.distLimit) else s.rrc.rod j := by
  induction l generalizing s with
  | nil => simp
  | cons i l ih =>
    rw [List.foldl_cons, ih, testDistance_distLimit]
    by_cases hj : j = i
    · subst hj
      rw [testDistance_rod, Option.map_map]
      have e : Rod.worned s.distLimit ∘ Rod.worned s.distLimit = Rod.worned s.distLimit :=
        funext (Rod.worned_worned _)
      simp [e]
    · simp only [testDistance_rod_of_ne _ _ hj, List.mem_cons, hj, false_or]

/-- None of a list of rods is worn anew. -/
def State.spares (s : State) (l : List Nat) : Prop :=
  ∀ i ∈ l, ∀ r, s.rrc.rod i = some r → r.worn = true ∨ r.dist < s.distLimit

theorem foldl_testDistance_of_spares {l : List Nat} {s : State} (h : s.spares l) :
    l.foldl (fun t i => testDistance i t) s = s := by
  induction l with
  | nil => rfl
  | cons i l ih =>
    have e : testDistance i s = s := by
      cases hr : s.rrc.rod i with
      | none => exact testDistance_of_free hr
      | some r => exact testDistance_of_not hr (h i List.mem_cons_self r hr)
    rw [List.foldl_cons, e, ih fun j hj => h j (List.mem_cons_of_mem _ hj)]

/-- The string with its rods' drilled distance added, before the rods are tested (R49). -/
def State.drilled (x : Nat) (s : State) : State :=
  (s.rrc.string.map Prod.fst).foldl (fun t i => addDistance x i t) s

section
variable {x : Nat} {u : State}

theorem drilledDistance_eq : drilledDistance x u =
    (u.rrc.string.map Prod.fst).foldl (fun t i => testDistance i t) (u.drilled x) := rfl

theorem drilled_lc : (u.drilled x).lc = u.lc :=
  foldl_leaves _ State.lc (f := fun t i => addDistance x i t) (fun _ _ => rfl) _

theorem drilled_distLimit : (u.drilled x).distLimit = u.distLimit :=
  foldl_leaves _ State.distLimit (f := fun t i => addDistance x i t) (fun _ _ => rfl) _

variable (hn : (u.rrc.string.map Prod.fst).Nodup)
include hn

theorem drilled_rod {i : Nat} (hi : i ∈ u.rrc.string.map Prod.fst) :
    (u.drilled x).rrc.rod i = (u.rrc.rod i).map (Rod.drilled x) :=
  (foldl_addDistance_rod x hn u i).trans (if_pos hi)

/-- A string of which the gain wears no rod anew. -/
theorem drilled_spares {l : List Nat} (hl : ∀ i ∈ l, i ∈ u.rrc.string.map Prod.fst)
    (h : ∀ i r, i ∈ l → u.rrc.rod i = some r → r.worn = true ∨ r.dist + x < u.distLimit) :
    (u.drilled x).spares l := by
  intro i hi r hr
  rw [drilled_rod hn (hl i hi)] at hr
  obtain ⟨r', hr', rfl⟩ := Option.map_eq_some_iff.1 hr
  rw [drilled_distLimit]
  exact (h i r' hi hr').imp id fun hd => lt_of_le_of_lt (min_le_left ..) hd

/-- The notice of a string of which the gain wears the first rod alone (R49). -/
theorem drilledDistance_lc_of_first {i : Nat} {torque : Option Nat} {rest : List (Nat × Option Nat)}
    {r : Rod} (hst : u.rrc.string = (i, torque) :: rest) (hr : u.rrc.rod i = some r)
    (hw : r.worn = false) (hlim : u.distLimit ≤ (r.drilled x).dist)
    (hq : ∀ j b, j ∈ rest.map Prod.fst → u.rrc.rod j = some b → b.worn = true ∨ b.dist + x < u.distLimit) :
    (drilledDistance x u).lc =
      (u.raise (.rodWorn r.serial .distance r.conns (r.drilled x).dist)).lc := by
  have hl : u.rrc.string.map Prod.fst = i :: rest.map Prod.fst := by rw [hst]; rfl
  have hi : i ∉ rest.map Prod.fst := (List.nodup_cons.1 (hl ▸ hn)).1
  have hA : (u.drilled x).rrc.rod i = some (r.drilled x) := by
    rw [drilled_rod hn (by simp [hl]), hr]; rfl
  have hs : (testDistance i (u.drilled x)).spares (rest.map Prod.fst) := by
    intro j hj b hb
    have hne : j ≠ i := fun e => hi (e ▸ hj)
    rw [testDistance_rod_of_ne _ _ hne] at hb
    rw [testDistance_distLimit]
    exact drilled_spares hn (fun k hk => by simp [hl, hk]) (fun k b hk hb => hq k b hk hb) j hj b hb
  rw [drilledDistance_eq, hl, List.foldl_cons, foldl_testDistance_of_spares hs,
    testDistance_of_worn hA hw (by rwa [drilled_distLimit])]
  simp only [State.raise, State.setLc_lc, drilled_lc]
  rfl

/-- The registry after a rise (R49). -/
theorem drilledDistance_rod (i : Nat) : (drilledDistance x u).rrc.rod i =
    if i ∈ u.rrc.string.map Prod.fst then
      (u.rrc.rod i).map (fun r => (r.drilled x).worned u.distLimit)
    else u.rrc.rod i := by
  rw [drilledDistance_eq, foldl_testDistance_rod, drilled_distLimit, State.drilled,
    foldl_addDistance_rod x hn]
  split
  · rw [Option.map_map]; rfl
  · rfl

end

/-! ## The bit depth and the mark -/

section
variable {u : State}

theorem recompute_of_not_live (h : u.dib.dstate ≠ .live) : recompute u = u := if_neg h

theorem recompute_of_live (h : u.dib.dstate = .live) : recompute u = testHwm (u.setDib
    { u.dib with
      depth := ((u.dib.lenLast : Int) - (u.dib.headLast.getD 0 : Nat) - u.dib.offset).toNat }) := if_pos h

theorem live_iff {b : Bu} : b.live = true ↔ b.jobSt = .opened ∨ b.jobSt = .suspended := by
  simp [Bu.live]

theorem testHwm_of_still (h : u.bu.jobSt = .noJob ∨ u.bu.jobSt = .closing ∨ u.dib.depth ≤ u.dib.hwm) :
    testHwm u = u := by
  refine if_neg fun hc => ?_
  obtain ⟨hl, hd⟩ := by simpa [live_iff] using hc
  rcases h with h | h | h
  · rw [h] at hl; simp at hl
  · rw [h] at hl; simp at hl
  · omega

/-- The high-water mark raised to the depth, with the footage of the rise (R109, R150). -/
theorem testHwm_of_rise {t : Tariff} (hj : u.bu.jobSt = .opened ∨ u.bu.jobSt = .suspended)
    (hd : u.dib.hwm < u.dib.depth) (ht : u.bu.jobTariff = some t) :
    let h0 := u.dib.hwm
    let h1 := u.dib.depth
    testHwm u = testBoundary (drilledDistance (h1 - h0) ((u.setDib { u.dib with hwm := h1 }).setBu
      (u.bu.both (Accum.addFootage (bandParts h0 h1 (t.bands.map Prod.fst)))))) := by
  have hc : (u.bu.live && decide (u.dib.hwm < u.dib.depth)) = true := by simp [live_iff.2 hj, hd]
  rw [testHwm, if_pos hc]
  simp only [accrueFootage, State.setDib_bu, ht]

end

/-! ## The closing boundary -/

section
variable (s : State)

theorem handOver_dib (kind : RKind) (job : Nat) (body : List Byte) (fresh : Bool) (item : Option Nat) :
    (handOver kind job body fresh item s).1.dib = s.dib := by
  fun_cases handOver kind job body fresh item s <;> rfl

theorem commitHead_openIv : (commitHead s).1.dib.openIv = s.dib.openIv := by
  unfold commitHead
  split
  · rfl
  · simp only []
    split <;> simp [handOver_dib]

theorem testHeads_openIv (n : Nat) : (testHeads n s).dib.openIv = s.dib.openIv := by
  induction n generalizing s with
  | zero => rfl
  | succ n ih =>
    unfold testHeads
    split
    · rfl
    · split
      · simp only []
        split
        · rw [ih, commitHead_openIv]
        · exact commitHead_openIv s
      · rfl

theorem makeRoom_openIv : (makeRoom s).1.dib.openIv = s.dib.openIv := by
  fun_cases makeRoom s with
  | case1 => rfl
  | case2 => rfl
  | case3 => exact (testHeads_openIv _ _).trans (commitHead_openIv s)

variable {s}

/-- Making room in the sample queue leaves the open interval (R115). -/
theorem openIv_of_makeRoom {w : State} {room : Bool} (h : makeRoom s = (w, room)) :
    w.dib.openIv = s.dib.openIv := by
  have e := makeRoom_openIv s
  rwa [h] at e

theorem makeRoom_of_free (h : s.dib.queue.length < 16) (hf : ∀ e ∈ s.dib.queue, e.flush = false) :
    makeRoom s = (s, true) := by
  have hm : s.dib.mustForce = false := by
    simpa [Dib.mustForce, Config.sampleQueueTop, Nat.not_le.2 h] using hf
  rw [makeRoom, hm]; rfl

theorem makeRoom_of_full (h : 16 ≤ s.dib.queue.length) (hp : s.rws.hasPlace = false) :
    makeRoom s = (s, false) := by
  have hm : s.dib.mustForce = true := by simp [Dib.mustForce, Config.sampleQueueTop, h]
  rw [makeRoom, hm, hp]; rfl

/-- An interval closes, and the next opens at its bottom (R114, R116). -/
theorem closeInterval_goOn {iv : Interval} {bottom : Nat} (h : s.dib.openIv = some iv) :
    closeInterval true bottom s =
      let e := closedEntry iv bottom s
      openInterval bottom ((s.setDib { s.dib with queue := s.dib.queue ++ [e], openIv := none }).raise
        (.intervalClosed iv.job iv.number iv.top bottom e.rop iv.meanPressure
          (BitVec.ofNat 8 (iv.flagByte false)))) := by
  rw [closeInterval, h]; rfl

/-- The open interval with the SPAN of the boundary that it has reached (R114; log 17). -/
def Interval.spanned (bottom : Nat) (iv : Interval) : Interval :=
  { iv with span := iv.span || decide (iv.boundary < bottom) }

section
variable {iv : Interval} (hi : s.dib.openIv = some iv)
include hi

theorem testBoundary_of_below (h : s.dib.hwm < iv.boundary) : testBoundary s = s := by
  rw [testBoundary, hi]; exact if_pos h

/-- The boundary reached: by what room is made, the interval closes or goes on MERGED (R114, R115). -/
theorem testBoundary_of_reached (h : iv.boundary ≤ s.dib.hwm) {w : State} {room : Bool}
    (hm : makeRoom (s.setDib
      { s.dib with openIv := some (iv.spanned (iv.lastBoundary s.dib.hwm)) }) = (w, room)) :
    let bottom := iv.lastBoundary s.dib.hwm
    testBoundary s = if room then closeInterval true bottom w
      else w.setDib { w.dib with
        openIv := some { iv.spanned bottom with merged := true, boundary := bottom + iv.length } } := by
  have hw : w.dib.openIv = some (iv.spanned (iv.lastBoundary s.dib.hwm)) := openIv_of_makeRoom hm
  simp only [Interval.spanned] at hm hw ⊢
  rw [testBoundary, hi]
  simp only [Nat.not_lt.2 h, if_false, Dib.onOpen, hi, Option.map_some, hm, hw]

end

end

/-- Settles O50: the step, the depth and the mark, the string's rods, and the closing boundary. -/
theorem encoderStepsMoveTheHead : Obligations.EncoderStepsMoveTheHead := by
  refine ⟨?_, fun u => ⟨recompute_of_not_live, recompute_of_live, testHwm_of_still, ?_⟩, ?_, ?_⟩
  · intro dt d s hs h c
    rw [show s.sfe.enc = h.sfe.enc by simp [h], show s.sfe.head = h.sfe.head by simp [h],
      show s.dib = h.dib by simp [h]]
    refine ⟨fun g => congrArg Host.Outcome.next
      (event_quiet hs (takeEncoder_of_fault g) (State.elapse_reports dt s)), fun x he hx => ?_⟩
    have loud : ∀ {u : State}, takeEncoder d h = u → c = .next (finish u) :=
      fun e => congrArg Host.Outcome.next (event_finish hs e)
    refine ⟨?_, ?_, ?_, ?_, ?_⟩ <;> rintro rfl
    · exact loud (takeEncoder_both he hx)
    · exact fun hn => loud ((takeEncoder_up he hx).trans (if_neg (by omega)))
    · exact fun hn => loud ((takeEncoder_down he hx).trans (if_neg (by omega)))
    · exact fun hn => loud ((takeEncoder_up he hx).trans (if_pos hn))
    · exact fun hn => loud ((takeEncoder_down he hx).trans (if_pos hn))
  · intro t hj hd ht h0 h1 x part more footed
    have hm : ∀ a, Accum.addFootage (bandParts h0 h1 (t.bands.map Prod.fst)) a = more a := fun a => by
      simp only [Accum.addFootage, addFootage_bandParts, more]
      rfl
    rw [testHwm_of_rise hj hd ht]
    simp only [Bu.both, hm, footed, h0, h1, x]
  · intro u x hn t rods
    have hfr := drilledDistance_offRods u x
    have hr : t.rrc = { u.rrc with registry := t.rrc.registry } :=
      congrArg (fun p => { p.1 with registry := t.rrc.registry }) hfr
    simp only [State.offRods, Prod.mk.injEq] at hfr
    obtain ⟨-, h1, h2, h3, h4, h5, h6, h7, h8, -⟩ := hfr
    refine ⟨fun i hi => (drilledDistance_rod hn i).trans (if_neg hi), fun i rod hi hrod => ?_, hr, h5, h7,
      h1, h2, h3, h4, h6, h8, fun hq => ?_, ?_⟩
    · intro far
      rw [drilledDistance_rod hn, if_pos hi, hrod]
      rfl
    · have hs : (u.drilled x).spares rods := drilled_spares hn (fun _ hi => hi) hq
      exact (congrArg State.lc (foldl_testDistance_of_spares hs)).trans drilled_lc
    · exact fun i torque rest rod hst hrod hw hlim hq =>
        drilledDistance_lc_of_first hn hst hrod hw hlim hq
  · intro u
    refine ⟨fun h => by rw [testBoundary, h], fun iv hi => ?_⟩
    intro bottom spanned v
    refine ⟨testBoundary_of_below hi, fun hb => ⟨fun hl hf => ?_, fun hl hp => ?_, fun w hw => ?_,
      fun w hw => testBoundary_of_reached hi hb hw⟩⟩
    · have hm : makeRoom v = (v, true) := makeRoom_of_free hl hf
      have ho : v.dib.openIv = some spanned := rfl
      exact (testBoundary_of_reached hi hb hm).trans ((if_pos rfl).trans (closeInterval_goOn ho))
    · have hm : makeRoom v = (v, false) := makeRoom_of_full hl hp
      exact testBoundary_of_reached hi hb hm
    · have ho : w.dib.openIv = some spanned := openIv_of_makeRoom hw
      exact (testBoundary_of_reached hi hb hw).trans ((if_pos rfl).trans (closeInterval_goOn ho))

end Sys2Proof.Machine
end

section
/-! PROOFS. Rig signals and watch groups: raw changes, and the switches that blocks read. -/

namespace Sys2Proof.Machine

/-! ## The stability timer (R1) -/

section
variable {f : Sfe} {sw : Switch} {on : Bool}

theorem rawChange_of_same (h : inSet f.raw sw = on) : f.rawChange sw on = f := if_pos h

theorem rawChange_of_back (h : inSet f.raw sw ≠ on) (ha : inSet f.acquired sw = true)
    (hd : inSet f.debounced sw = on) : f.rawChange sw on =
      { f with raw := putSwitch f.raw sw on, stab := f.stab.set (switchIndex sw) none } := by
  rw [Sfe.rawChange, if_neg h]
  exact if_pos (by simp [ha, hd])

theorem rawChange_of_away (h : inSet f.raw sw ≠ on)
    (ha : inSet f.acquired sw = false ∨ inSet f.debounced sw ≠ on) : f.rawChange sw on =
      { f with raw := putSwitch f.raw sw on, stab := f.stab.set (switchIndex sw) (some 20) } := by
  rw [Sfe.rawChange, if_neg h]
  refine if_neg ?_
  rcases ha with ha | hd
  · simp [ha]
  · simp [hd]

end

/-- A switch written on reads on (R3). -/
theorem inSet_putSwitch_on (x : SwitchSet) (sw : Switch) : inSet (putSwitch x sw true) sw = true := by
  cases sw <;> simp [inSet, putSwitch, switchMask, switchBit, switchIndex]

/-! ## The depth state (R104, R106) -/

section
variable {u : State}

theorem wantedDepth_eq (u : State) : wantedDepth u =
    if u.hs.depthHold then .held else if u.dib.encFaulted then .fault
      else if u.on .headConnected then .live else .held := by
  unfold wantedDepth
  cases u.on .headConnected <;> rfl

theorem decideDepth_of_same (h : wantedDepth u = u.dib.dstate) : decideDepth u = u := if_pos h

theorem decideDepth_of_not_live (h : wantedDepth u ≠ u.dib.dstate) (hl : wantedDepth u ≠ .live) :
    decideDepth u = u.setDib { u.dib with dstate := wantedDepth u } :=
  (if_neg h).trans (if_neg hl)

theorem decideDepth_of_live (h : wantedDepth u ≠ u.dib.dstate) (hl : wantedDepth u = .live) :
    decideDepth u = enterLive (u.setDib { u.dib with dstate := .live }) := by
  rw [decideDepth]
  exact (if_neg h).trans ((if_pos hl).trans (by rw [hl]))

/-- The depth as an entry to LIVE works it out (R105). -/
theorem enterLive_of_unset (h : u.dib.unset = true) :
    enterLive u = testHwm (u.setDib { u.dib with unset := false, depth := u.dib.figure.toNat }) :=
  if_pos h

theorem enterLive_of_near (h : u.dib.unset = false) (h1 : -100 ≤ u.dib.figure - (u.dib.depth : Int))
    (h2 : u.dib.figure - (u.dib.depth : Int) ≤ 100) :
    enterLive u = testHwm (u.setDib { u.dib with depth := u.dib.figure.toNat }) :=
  (if_neg (by simp [h])).trans (if_pos ⟨h1, h2⟩)

/-- A slip absorbed into the offset (R106). -/
theorem enterLive_of_far (h : u.dib.unset = false)
    (hd : u.dib.figure - (u.dib.depth : Int) < -100 ∨ 100 < u.dib.figure - (u.dib.depth : Int)) :
    let diff := u.dib.figure - (u.dib.depth : Int)
    enterLive u = (u.setDib
      { u.dib with
        offset := u.dib.offset + diff
        openIv := if u.bu.jobSt = .opened ∨ u.bu.jobSt = .suspended then
            u.dib.openIv.map (fun v => { v with slip := true })
          else u.dib.openIv }).raise (.depthSlip diff (u.dib.offset + diff) u.dib.depth) := by
  intro diff
  have hn : ¬(-(Config.depthTolerance : Int) ≤ diff ∧ diff ≤ (Config.depthTolerance : Int)) := by
    have : (Config.depthTolerance : Int) = 100 := rfl
    omega
  refine (if_neg (by simp [h])).trans ((if_neg hn).trans ?_)
  by_cases hj : u.bu.jobSt = .opened ∨ u.bu.jobSt = .suspended
  · simp only [live_iff.2 hj, hj, if_true]; rfl
  · have hl : u.bu.live = false := Bool.eq_false_iff.2 fun e => hj (live_iff.1 e)
    simp only [hl, hj, if_false]; rfl

end

/-! ## The loader's test (R58) -/

section
variable {u : State} {o : LoadOp} (ho : u.rrc.loader = some o)
include ho

theorem loaderTest_waiting (hp : o.phase = .waiting) : loaderTest u =
    if loaderMay u then requestMotion (u.indexReq .loader o.slot)
      (u.setRrc { u.rrc with loader := some { o with phase := .requested } })
    else u := by
  rw [loaderTest, ho]
  simp only [hp]
  rfl

theorem loaderTest_requested (hp : o.phase = .requested) : loaderTest u =
    if loaderMay u then u
    else if u.aha.stands .loader && (!u.aha.holds .loader || u.rrc.hold) then
      withdraw .loader (u.setRrc { u.rrc with loader := some { o with phase := .waiting } })
    else u := by
  rw [loaderTest, ho]
  simp only [hp]

end

theorem loaderMay_iff {u : State} : loaderMay u = true ↔ u.on .armHome = true ∧ u.rrc.hold = false := by
  simp [loaderMay]

theorem holds_iff {a : Aha} {c : Client} : a.holds c = true ↔ ∃ q, a.holder = some q ∧ q.client = c := by
  unfold Aha.holds
  cases a.holder <;> simp

theorem stands_iff {a : Aha} {c : Client} : a.stands c = true ↔
    (∃ q, a.holder = some q ∧ q.client = c) ∨ ∃ q ∈ a.stack ++ a.waiting, q.client = c := by
  simp only [Aha.stands, Aha.standing, List.any_eq_true, beq_iff_eq, List.append_assoc, List.mem_append,
    Option.mem_toList, or_and_right, exists_or]

/-! ## INDEX LOCKED at the arbiter (R67, R71, R73) -/

/-- A jog whose own step is counted has its end met (R73; log 29). -/
def Req.met (c : Prop) [Decidable c] (q : Req) : Req :=
  if c ∧ q.client = .manual ∧ q.ownStep = true then { q with moved := true } else q

/-- The arbiter after a step that is counted where `c` holds. -/
def Aha.stepped (c : Prop) [Decidable c] (a : Aha) : Aha :=
  { a with
    holder := a.holder.map (Req.met c), stack := a.stack.map (Req.met c)
    waiting := a.waiting.map (Req.met c) }

section
variable {c : Prop} [Decidable c] {q : Req}

theorem met_of_not (h : ¬c) : Req.met c = id := funext fun _ => if_neg fun hc => h hc.1
theorem met_of_other (h : q.client = .manual → q.ownStep = false) : q.met c = q :=
  if_neg fun hc => by simp [h hc.2.1] at hc
theorem met_fn : (q.met c).fn = q.fn := by unfold Req.met; split <;> rfl

theorem stepped_of_not {a : Aha} (h : ¬c) : a.stepped c = a := by
  simp [Aha.stepped, met_of_not h]

end

/-- The arbiter's note of a step, as the statements give it. -/
theorem setAha_stepped (b : Bool) (s : State) :
    (if b then s.setAha (s.aha.modReq .manual Req.noteMoved) else s) =
      s.setAha (s.aha.stepped (b = true)) := by
  cases b with
  | false => rw [stepped_of_not (by simp)]; rfl
  | true =>
    have e : (fun r : Req => if r.client = .manual then r.noteMoved else r) = Req.met (true = true) := by
      funext r
      by_cases hc : r.client = .manual <;> by_cases ho : r.ownStep = true <;>
        simp [Req.met, Req.noteMoved, hc, ho]
    simp only [if_true, Aha.modReq, e, Aha.stepped]

section
variable {b : Bool} {s : State} {r : Req}

/-- The arbiter with the step noted, before it tests its holder. -/
def State.stepNoted (b : Bool) (s : State) : State := s.setAha (s.aha.stepped (b = true))

theorem ahaLocked_eq (b : Bool) (s : State) : ahaLocked b s =
    match (s.stepNoted b).aha.holder with
    | none => s.stepNoted b
    | some r =>
      if r.fn != .index then s.stepNoted b
      else if r.lockWait.isSome then
        if targetMet (s.stepNoted b) r then endHolder (.complete r r.metEnd) (s.stepNoted b)
        else if (armGuard (s.stepNoted b)).2 then
          endHolder (.failed r .guard (armGuard (s.stepNoted b)).1.sfe.g1.mism) (armGuard (s.stepNoted b)).1
        else driveIndex r (armGuard (s.stepNoted b)).1
      else if b && targetMet (s.stepNoted b) r then endHolder (.complete r r.metEnd) (s.stepNoted b)
      else s.stepNoted b := by
  rw [ahaLocked, setAha_stepped]
  rfl

theorem ahaLocked_of_no_index (h : ∀ r, s.aha.holder = some r → r.fn ≠ .index) :
    ahaLocked b s = s.stepNoted b := by
  rw [ahaLocked_eq]
  split
  · rfl
  · rename_i r hr
    obtain ⟨q, hq, rfl⟩ := Option.map_eq_some_iff.1 hr
    exact if_pos (by simpa [met_fn] using h q hq)

section
variable (hr : (s.stepNoted b).aha.holder = some r) (hf : r.fn = .index)
include hr hf

/-- The holder's target is met by a step, or while it waits for the lock. -/
theorem ahaLocked_of_met (hm : targetMet (s.stepNoted b) r = true)
    (h : b = true ∨ r.lockWait ≠ none) : ahaLocked b s = endHolder (.complete r r.metEnd) (s.stepNoted b) := by
  rw [ahaLocked_eq, hr]
  simp only [hf, hm]
  cases hl : r.lockWait with
  | none => simp [h.resolve_right (not_not.2 hl)]
  | some k => simp

/-- A driven motion goes on that no step has ended. -/
theorem ahaLocked_of_driven (hl : r.lockWait = none)
    (h : ¬(b = true ∧ targetMet (s.stepNoted b) r = true)) : ahaLocked b s = s.stepNoted b := by
  rw [ahaLocked_eq, hr]
  have hc : (b && targetMet (s.stepNoted b) r) = false := by simpa using h
  simp [hf, hl, hc]

/-- A motion that waited for the lock is driven, or fails by its guard. -/
theorem ahaLocked_of_waiting (hl : r.lockWait ≠ none) (hm : targetMet (s.stepNoted b) r = false) :
    ahaLocked b s =
      if (armGuard (s.stepNoted b)).2 then
        endHolder (.failed r .guard (armGuard (s.stepNoted b)).1.sfe.g1.mism) (armGuard (s.stepNoted b)).1
      else driveIndex r (armGuard (s.stepNoted b)).1 := by
  rw [ahaLocked_eq, hr]
  simp [hf, hm, Option.isSome_iff_ne_none.2 hl]

end

end

/-! The guard and the drive of an index motion (R71, R72). -/

/-- The guard's mismatch set, as the switches stand. -/
def State.guardMism (s : State) : SwitchSet := (s.sfe.debounced ^^^ guardSet) &&& guardSet

theorem armGuard_eq (s : State) : armGuard s =
    (s.setSfe { s.sfe with
      g1 := ⟨guardSet, guardSet, s.guardMism, s.sfe.g1.flag || s.guardMism != 0⟩ }, s.guardMism != 0) := by
  simp only [armGuard, writeGroup, BitVec.and_self]
  rfl

section
variable {s : State}

theorem armGuard_of_match (h : s.guardMism = 0) : armGuard s =
    (s.setSfe { s.sfe with g1 := ⟨guardSet, guardSet, 0, s.sfe.g1.flag⟩ }, false) := by
  simp [armGuard_eq, h]

theorem armGuard_of_mismatch (h : s.guardMism ≠ 0) : armGuard s =
    (s.setSfe { s.sfe with g1 := ⟨guardSet, guardSet, s.guardMism, true⟩ }, true) := by
  have e : (s.guardMism != 0) = true := by simpa using h
  simp only [armGuard_eq, e, Bool.or_true]

/-- An index motion to a slot is driven after its wait (R71). -/
theorem driveIndex_of_slot {r : Req} {n : Nat} {kept : Option Nat} (hf : r.fn = .index)
    (ht : r.target = .slot n) (hl : r.lockWait = some kept) : driveIndex r s =
      let route := routeTo s.rrc.index n
      let full := 4000 + 2000 * route.2
      (s.setAha
        { s.aha with
          holder := some
            { r with
              dir := route.1.dir, route := some route, ownStep := true, lockWait := none
              left := some (if r.client = .loader then full else kept.getD full) }
          valve := some (.index, route.1.dir) }).setRrc { s.rrc with stepDir := route.1 } := by
  simp only [driveIndex, Req.timeout, Req.saved, hf, ht, hl]
  rfl

end

/-! ## A change that is taken -/

section
variable {s : State} {sw : Switch} {on : Bool}

/-- The front end with a change taken (R1). -/
def State.changed (sw : Switch) (on : Bool) (s : State) : State :=
  s.setSfe { s.sfe with
    debounced := putSwitch s.sfe.debounced sw on, stab := s.sfe.stab.set (switchIndex sw) none }

theorem evalGroupOn_unselected {n : GroupNo} (h : inSet (s.group n).sel sw = false) :
    evalGroupOn n sw s = (s, false) := if_neg (by simp [h])

/-- A change of a switch that no group selects reaches its readers alone (R1, R3). -/
theorem takeChange_unselected (h : ∀ n, inSet (s.group n).sel sw = false) :
    takeChange sw on s = settle (deliverSwitch sw on (s.changed sw on)) := by
  have e : ∀ n, evalGroupOn n sw (s.changed sw on) = (s.changed sw on, false) := fun n =>
    evalGroupOn_unselected (by have hn := h n; cases n <;> exact hn)
  have hc : s.setSfe ({ s.sfe with debounced := putSwitch s.sfe.debounced sw on }.setTimer sw none) =
    s.changed sw on := rfl
  unfold takeChange
  simp only [hc, e]
  rfl

theorem hsHeadConnected_of_other
    (h : ∀ o, s.hs.op = some o → o.stage ∉ [Stage.unscrew, .free, .reconnect, .make]) :
    hsHeadConnected s = s := by
  unfold hsHeadConnected
  split
  · rename_i o ho
    have hn := h o ho
    split <;> simp_all
  · rfl

theorem ahaSwitchOn_of_other
    (h : ∀ r, s.aha.holder = some r → r.target ≠ .switch sw ∧ r.target ≠ .jog (some sw)) :
    ahaSwitchOn sw s = s := by
  unfold ahaSwitchOn
  split
  · rename_i r hr
    obtain ⟨h1, h2⟩ := h r hr
    exact if_neg (by simp [Req.aimsAt, h1, h2])
  · rfl

/-- A motion whose target the switch is completes (R67). -/
theorem ahaSwitchOn_of_target {r : Req} (hr : s.aha.holder = some r) (ht : r.target = .switch sw) :
    ahaSwitchOn sw s = endHolder (.complete r .target) s := by
  unfold ahaSwitchOn
  rw [hr]
  simp [Req.aimsAt, ht, Req.metEnd]

theorem loaderTest_of_none (h : s.rrc.loader = none) : loaderTest s = s := by
  rw [loaderTest, h]

end

/-- INDEX LOCKED taken on: the index position after it (R53). -/
theorem stepCounted_eq (r : Rrc) : r.stepCounted =
    { r with
      index := if r.stepMark then stepFrom r.stepDir r.index else r.index, stepMark := false } := by
  obtain ⟨_, _, _, _, _, _, _, mark, _, _⟩ := r
  cases mark <;> rfl

/-- Settles O45: the raw change, the depth state, the loader's test, and the three switches' readers. -/
theorem rawChangesRunTheStabilityTimer : Obligations.RawChangesRunTheStabilityTimer := by
  refine ⟨?_, ?_, ?_, ?_⟩
  · intro dt sw on s h c f
    have hraw : s.sfe.raw = h.sfe.raw := (State.elapse_sfe_raw dt s).symm
    have hf : f = { h.sfe with raw := putSwitch h.sfe.raw sw on } := by simp only [f, hraw]
    refine ⟨fun hp => congrArg Host.Outcome.next (if_pos hp), fun hs => ?_⟩
    have turns : ∀ {g : Sfe}, h.sfe.rawChange sw on = g → c = .next (lcService (h.setSfe g)) := fun e =>
      congrArg Host.Outcome.next ((if_neg hs.1).trans
        (event_quiet hs (congrArg h.setSfe e) (State.elapse_reports dt s)))
    rw [hraw, hf]
    exact ⟨fun e => turns (rawChange_of_same e), fun e ha hd => turns (rawChange_of_back e ha hd),
      fun e ha => turns (rawChange_of_away e ha)⟩
  · intro u want fig diff
    have hw : wantedDepth u = want := wantedDepth_eq u
    refine ⟨fun e => decideDepth_of_same (hw.trans e), fun hn hl => ?_, fun hn hl => ?_⟩
    · rw [decideDepth_of_not_live (hw ▸ hn) (hw ▸ hl), hw]
    · rw [decideDepth_of_live (hw ▸ hn) (hw.trans hl)]
      let l := u.setDib { u.dib with dstate := .live }
      exact ⟨enterLive_of_unset (u := l), enterLive_of_near (u := l), enterLive_of_far (u := l)⟩
  · intro u o ho may runs waits phase
    have hmay : loaderMay u = true ↔ may := loaderMay_iff
    have hruns : u.aha.holds .loader = true ↔ runs := holds_iff
    have hstands : u.aha.stands .loader = true ↔ runs ∨ waits := stands_iff
    refine ⟨fun hp hm => ?_, fun hp hm => ?_, fun hp hm => ?_, fun hp hm => ⟨fun hr hw => ?_,
      fun hr hw => ?_, fun hr hh => ?_, fun hr hh => ?_⟩⟩
    · exact (loaderTest_waiting ho hp).trans (if_neg (hmay.not.2 hm))
    · exact (loaderTest_waiting ho hp).trans (if_pos (hmay.2 hm))
    · exact (loaderTest_requested ho hp).trans (if_pos (hmay.2 hm))
    all_goals refine (loaderTest_requested ho hp).trans ((if_neg (hmay.not.2 hm)).trans ?_)
    · exact if_neg (by simp [Bool.eq_false_iff.2 (hstands.not.2 (not_or.2 ⟨hr, hw⟩))])
    · have hn : u.aha.holds .loader = false := Bool.eq_false_iff.2 (hruns.not.2 hr)
      refine (if_pos (by simp [hn, hstands.2 (.inr hw)])).trans ?_
      exact if_neg (by simpa using hn)
    · exact if_neg (by simp [hruns.2 hr, hh])
    · exact if_pos (by simp [hstands.2 (.inl hr), hh])
  · intro dt sw s hs h
    rw [show s.sfe.raw = h.sfe.raw by simp [h], show s.sfe.g0 = h.sfe.g0 by simp [h],
      show s.sfe.g1 = h.sfe.g1 by simp [h], show s.sfe.g2 = h.sfe.g2 by simp [h],
      show s.sfe.g3 = h.sfe.g3 by simp [h], show s.rrc = h.rrc by simp [h],
      show s.hs.op = h.hs.op by simp [h]]
    intro c on d u due
    have taken : due → c = .next (finish (settle (deliverSwitch sw on u))) := by
      rintro ⟨ha, ht, hd, h0, h1, h2, h3⟩
      have hc : h.sfe.changeDue sw = true := by
        simp only [Sfe.changeDue, Sfe.timerOf, Timer.over, ha, ht]
        simpa using hd
      refine congrArg Host.Outcome.next (event_finish hs ((if_pos hc).trans (takeChange_unselected ?_)))
      rintro ⟨⟩ <;> assumption
    have quiet : ∀ {w : State}, due → deliverSwitch sw on u = w → w.reports = h.reports →
        c = .next (lcService w) := by
      intro w hd e hw
      have hw' : w.reports = [] := hw.trans ((State.elapse_reports dt s).trans hs.2)
      rw [taken hd, e, settle_of_nil hw', finish_of_nil hw']
    refine ⟨?_, ?_, ?_⟩
    · rintro hd rfl ho
      have hb := decideDepth_offBuilder u
      refine quiet hd (hsHeadConnected_of_other fun o e => ho o ?_) (reports_of_offBuilder (s := u) hb)
      rwa [hs_of_offBuilder (s := u) hb] at e
    · rintro hd rfl
      refine ⟨fun hl hon => ?_, fun hr => ?_, fun r hon hr ht => ?_⟩
      · refine quiet hd ?_ rfl
        simp only [deliverSwitch, hon]
        exact loaderTest_of_none hl
      · refine (taken hd).trans ?_
        have e : (if on then ahaSwitchOn .armHome u else u) = u := by
          rw [ahaSwitchOn_of_other (s := u) hr, ite_self]
        simp only [deliverSwitch, e]
      · refine (taken hd).trans ?_
        simp only [deliverSwitch, hon, if_true, ahaSwitchOn_of_target (s := u) hr ht]
    · rintro hd rfl i met a v g m
      have hi : i = if h.rrc.stepMark then stepFrom h.rrc.stepDir h.rrc.index else h.rrc.index := by
        simp only [i]
        cases h.rrc.stepDir <;> rfl
      have hv : (rrcLocked true u).stepNoted h.rrc.stepMark = v := by
        simp only [rrcLocked, if_true, stepCounted_eq, v, hi]
        rfl
      refine ⟨fun hon => ?_, fun hon => ?_, fun r hon hm hr hc hf ht hl ho => ?_⟩
      · refine quiet hd ?_ rfl
        simp only [deliverSwitch, hon]
        rfl
      all_goals
        have hlock : v.on .indexLocked = true := by
          show inSet d .indexLocked = true
          simp only [d, hon, inSet_putSwitch_on]
        have del : deliverSwitch .indexLocked on u = ahaLocked h.rrc.stepMark (rrcLocked true u) := by
          simp only [deliverSwitch, hon, if_true]
          rfl
      · refine ⟨fun hn =>
            quiet hd (del.trans ((ahaLocked_of_no_index (s := rrcLocked true u) hn).trans hv)) rfl,
          fun r n hr hf ht ho => ?_⟩
        have hh : ((rrcLocked true u).stepNoted h.rrc.stepMark).aha.holder = some r := by
          rw [hv]
          show h.aha.holder.map (Req.met _) = _
          rw [hr, Option.map_some, met_of_other ho]
        have hm : targetMet ((rrcLocked true u).stepNoted h.rrc.stepMark) r = decide (i = n) := by
          rw [hv]
          simp only [targetMet, ht, hlock, Bool.and_true]
          rfl
        refine ⟨fun hor hin => ?_, fun hl hor => ?_, fun kept hl hne => ?_⟩
        · refine (taken hd).trans ?_
          rw [del, ahaLocked_of_met hh hf (by simpa [hm] using hin) hor, hv]
          simp only [Req.metEnd, ht]
        · refine quiet hd (del.trans ((ahaLocked_of_driven hh hf hl ?_).trans hv)) rfl
          rw [hm]
          simpa using fun hs hin => (hor.resolve_left (by simp [hs])) hin
        · have hw := ahaLocked_of_waiting hh hf (by simp [hl]) (by simpa [hm] using hne)
          rw [hv] at hw
          intro route full dir
          refine ⟨fun hg => ?_, fun hg => ?_⟩
          · refine quiet hd (del.trans (hw.trans ?_)) rfl
            rw [armGuard_of_match (s := v) hg]
            exact driveIndex_of_slot hf ht hl
          · refine (taken hd).trans ?_
            rw [del, hw, armGuard_of_mismatch (s := v) hg]
            rfl
      · have hh : ((rrcLocked true u).stepNoted h.rrc.stepMark).aha.holder =
            some { r with moved := true } := by
          rw [hv]
          show h.aha.holder.map (Req.met _) = _
          rw [hr, Option.map_some, Req.met, if_pos ⟨hm, hc, ho⟩]
        refine (taken hd).trans ?_
        rw [del, ahaLocked_of_met hh hf (by simp [targetMet, ht]) (.inl hm), hv]
        simp only [Req.metEnd, ht]

end Sys2Proof.Machine
end

section
/-! PROOFS. Rig signals and watch groups: the end of acquisition and the end of start-up. -/

namespace Sys2Proof.Machine

/-! ## The end of acquisition -/

section
variable {s : State}

/-- A group as a start leaves it stays in MATCH (R12, R17). -/
theorem evalGroup_of_reset {n : GroupNo} (h : s.group n = .reset) : evalGroup n s = (s, false) := by
  have hm : mismatchOf s.sfe.debounced 0 0 = 0 := BitVec.and_zero
  have e : s.setGroup n (s.group n) = s := by cases n <;> rfl
  rw [h] at e
  simp only [evalGroup, h, Group.reset, hm] at e ⊢
  exact congrArg (·, false) e

/-- With the groups as a start leaves them the end of acquisition raises no event of theirs. -/
theorem acquisitionOver_of_reset (h : ∀ n, s.group n = .reset) : acquisitionOver s =
    let t := acquiredStep (s.setSfe s.sfe.acquisitionOver)
    tryEndStartUp (t.setTps { t.tps with inputsReported := true }) := by
  have e : ∀ n, evalGroup n (s.setSfe s.sfe.acquisitionOver) =
      (s.setSfe s.sfe.acquisitionOver, false) := fun n =>
    evalGroup_of_reset (by have hn := h n; cases n <;> exact hn)
  unfold acquisitionOver
  simp only [e]
  rfl

theorem acquisitionDue_iff {f : Sfe} : f.acquisitionDue = true ↔
    f.acquisitionEnded = false ∧ f.acquired = BitVec.allOnes 16 := by
  simp [Sfe.acquisitionDue]

/-- A step is counted at the end of acquisition (R53; log 33). -/
def State.counts (s : State) : Prop := s.on .indexLocked = true ∧ s.rrc.stepMark = true

theorem acquiredStep_of_not_counted (h : ¬s.counts) :
    acquiredStep s = rrcLocked (s.on .indexLocked) s := by
  have e : (s.on .indexLocked && s.rrc.stepMark) = false := by
    simpa [State.counts] using h
  simp only [acquiredStep, e]
  rfl

theorem acquiredStep_of_counted (h : s.counts) :
    acquiredStep s = settle (ahaLocked true (rrcLocked (s.on .indexLocked) s)) := by
  have e : (s.on .indexLocked && s.rrc.stepMark) = true := by simpa [State.counts] using h
  simp only [acquiredStep, e]
  rfl

/-- The carousel's step and the arbiter's note of it, with no motion ended (R53, R67). -/
def State.stepTaken (s : State) (c : Prop) [Decidable c] : State :=
  (rrcLocked (s.on .indexLocked) s).setAha (s.aha.stepped c)

section
variable {c : Prop} [Decidable c]

theorem stepNoted_of_counted (h : c) :
    (rrcLocked (s.on .indexLocked) s).stepNoted true = s.stepTaken c := by
  have e : (true = true) = c := propext ⟨fun _ => h, fun _ => rfl⟩
  unfold State.stepNoted State.stepTaken
  congr 2

/-- A request that the step does not move still holds the grant. -/
theorem holder_of_counted {q : Req} (hq : s.aha.holder = some q)
    (ho : q.client = .manual → q.ownStep = false) :
    ((rrcLocked (s.on .indexLocked) s).stepNoted true).aha.holder = some q := by
  show s.aha.holder.map (Req.met _) = _
  rw [hq, Option.map_some, met_of_other ho]

variable (hc : c ↔ s.counts)
include hc

/-- A step ends nothing where none is counted, or no index motion holds the grant. -/
theorem acquiredStep_of_no_index (hrep : s.reports = [])
    (h : ¬c ∨ ∀ r, s.aha.holder = some r → r.fn ≠ .index) : acquiredStep s = s.stepTaken c := by
  by_cases k : c
  · have hn := h.resolve_left (not_not.2 k)
    rw [acquiredStep_of_counted (hc.1 k), ahaLocked_of_no_index (s := rrcLocked _ s) hn,
      stepNoted_of_counted k]
    exact settle_of_nil hrep
  · rw [acquiredStep_of_not_counted (mt hc.2 k), State.stepTaken, stepped_of_not k]
    rfl

section
variable {q : Req} {n : Nat} (k : c)
include k

/-- A slot is reached where the index position comes to it. -/
theorem targetMet_of_counted (ht : q.target = .slot n) :
    targetMet ((rrcLocked (s.on .indexLocked) s).stepNoted true) q =
      decide ((s.stepTaken c).rrc.index = n) := by
  rw [stepNoted_of_counted k]
  have hl : (s.stepTaken c).on .indexLocked = true := (hc.1 k).1
  simp only [targetMet, ht, hl, Bool.and_true]
  rfl

variable (ho : q.client = .manual → q.ownStep = false)
  (hq : s.aha.holder = some q) (hf : q.fn = .index) (ht : q.target = .slot n)
include ho hq hf ht

/-- A motion to the slot that the step reaches completes (R53, R67). -/
theorem acquiredStep_of_reached (hn : (s.stepTaken c).rrc.index = n) :
    acquiredStep s = settle (endHolder (.complete q .target) (s.stepTaken c)) := by
  rw [acquiredStep_of_counted (hc.1 k),
    ahaLocked_of_met (holder_of_counted hq ho) hf
      (by simpa [targetMet_of_counted hc k ht] using hn) (.inl rfl),
    stepNoted_of_counted k]
  simp only [Req.metEnd, ht]

/-- A motion to another slot goes on. -/
theorem acquiredStep_of_not_reached (hrep : s.reports = []) (hl : q.lockWait = none)
    (hn : (s.stepTaken c).rrc.index ≠ n) : acquiredStep s = s.stepTaken c := by
  rw [acquiredStep_of_counted (hc.1 k),
    ahaLocked_of_driven (holder_of_counted hq ho) hf hl
      (by simpa [targetMet_of_counted hc k ht] using hn),
    stepNoted_of_counted k]
  exact settle_of_nil hrep

end

end

end

/-! ## The end of start-up -/

section
variable {u : State}

/-- Start-up can end: both reports have come (R195). -/
def State.startUpOver (u : State) : Prop :=
  u.tps.phase = .startUp ∧ u.tps.inputsReported = true ∧ u.tps.storeReported = true

theorem startUpOver_iff : u.startUpOver ↔
    (decide (u.tps.phase = .startUp) && u.tps.inputsReported && u.tps.storeReported) = true := by
  simp [State.startUpOver, and_assoc]

theorem tryEndStartUp_of_not (h : ¬u.startUpOver) : tryEndStartUp u = u :=
  if_neg (startUpOver_iff.not.1 h)

theorem tryEndStartUp_of_over (h : u.startUpOver) : tryEndStartUp u =
    let s := u.setTps { u.tps with phase := .running, startEnd := some u.now }
    testFinal (settle (loaderTest (match u.tps.startKind with | .cold => endCold s | .warm => endWarm s))) := by
  unfold tryEndStartUp
  exact if_pos (startUpOver_iff.1 h)

end

/-! ## The gap and its record -/

section
variable {s : State} {gap : Nat}

theorem gapCategory_eq (b : Bu) : gapCategory b =
    if b.jobSt = .opened then (if b.breakdown = none then some .standby else some .breakdown)
    else if b.jobSt = .suspended then some .held else none := by
  unfold gapCategory
  cases b.jobSt with
  | opened => cases b.breakdown <;> rfl
  | suspended | closing | noJob => rfl

theorem accrueGap_of_none (h : gapCategory s.bu = none) :
    accrueGap gap s = s.setBu { s.bu with lossCat := none } := by
  fun_cases accrueGap gap s with
  | case1 => rfl
  | case2 b c hb => exact absurd (h.symm.trans hb) (by simp)

theorem accrueGap_of_some {c : Category} (h : gapCategory s.bu = some c) : accrueGap gap s =
    (s.setBu ({ s.bu with lossCat := none }.accrue c gap)).setDib
      (s.dib.onOpen (fun v => { v with powerGap := true })) := by
  fun_cases accrueGap gap s with
  | case1 b hb => exact absurd (h.symm.trans hb) (by simp)
  | case2 b d hb =>
    obtain rfl : c = d := Option.some.inj (h.symm.trans hb)
    rfl

/-- The gap's category does not change as the gap is accrued. -/
theorem gapCategory_accrueGap : gapCategory (accrueGap gap s).bu = gapCategory s.bu := by
  fun_cases accrueGap gap s <;> rfl

theorem accrueGap_hs : (accrueGap gap s).hs = s.hs := by
  fun_cases accrueGap gap s <;> rfl

theorem accrueGap_tps : (accrueGap gap s).tps = s.tps := by
  fun_cases accrueGap gap s <;> rfl

theorem accrueGap_rws : (accrueGap gap s).rws = s.rws := by
  fun_cases accrueGap gap s <;> rfl

/-- The record is the same before the gap is accrued and after it (R197). -/
theorem newRecovery_accrueGap {lc : Option Category} :
    newRecovery gap lc (accrueGap gap s) = newRecovery gap lc s := by
  have hj : (accrueGap gap s).bu.jobSt = s.bu.jobSt ∧ (accrueGap gap s).bu.job = s.bu.job := by
    fun_cases accrueGap gap s <;> exact ⟨rfl, rfl⟩
  simp only [newRecovery, gapCategory_accrueGap, accrueGap_hs, State.now, accrueGap_tps, hj]

/-- The end of a warm start, by what becomes of its record (R196, R197). -/
theorem endWarm_of_recorded {v : State} {n : Option Nat}
    (h : recordRecovery (newRecovery (gapOf s.now s.tps.lossSec) s.bu.lossCat s)
      (accrueGap (gapOf s.now s.tps.lossSec) (s.setTps { s.tps with recoveryPending := false })) =
        (v, n))
    (hb : gapCategory v.bu = gapCategory s.bu) (hh : v.hs = s.hs) :
    endWarm s =
      v.raise (.poweredWarm (gapOf s.now s.tps.lossSec) (gapCategory s.bu) s.hs.seq s.hs.opStage n) := by
  unfold endWarm
  rw [← hb, ← hh]
  simp only [newRecovery_accrueGap]
  rw [show newRecovery (gapOf s.now s.tps.lossSec) s.bu.lossCat
    (s.setTps { s.tps with recoveryPending := false }) =
      newRecovery (gapOf s.now s.tps.lossSec) s.bu.lossCat s from rfl, h]

end

/-! ## A hand-over, by the queue's place -/

section
variable {s : State} {kind : RKind} {job : Nat} {body : List Byte} {fresh : Bool} {item : Option Nat}

theorem hasPlace_iff {r : Rws} :
    r.hasPlace = true ↔ r.accepting = true ∧ r.queue.length < Config.writerQueueTop ∧
      r.nextSeq ≤ Config.top32 := by
  simp [Rws.hasPlace, and_assoc]

theorem handOver_of_place (h : s.rws.hasPlace = true) : handOver kind job body fresh item s =
    (s.setRws (writerTest
      { s.rws with
        nextSeq := s.rws.nextSeq + 1
        queue := s.rws.queue ++
          [⟨kind, s.rws.nextSeq, job, blocksFor body.length, s.tps.clock, body, fresh, item⟩] }),
      some s.rws.nextSeq) := by
  obtain ⟨ha, hq, hn⟩ := hasPlace_iff.1 h
  unfold handOver
  rw [if_neg (by simp [ha]), if_neg (Nat.not_lt.2 hn), if_neg (Nat.not_le.2 hq)]
  rfl

/-- With no place, and no number running out, the store stays as it is. -/
theorem handOver_of_no_place (h : s.rws.hasPlace = false)
    (hn : s.rws.nextSeq ≤ 4294967295 ∨ s.rws.exhausted = true) :
    handOver kind job body fresh item s = (s, none) := by
  unfold handOver
  split
  · rfl
  · next ha =>
    split
    · next hx => exact if_pos (hn.resolve_left (Nat.not_le.2 hx))
    · next hx =>
      refine if_pos (Nat.not_lt.1 fun hq => ?_)
      simp [hasPlace_iff.2 ⟨by simpa using ha, hq, Nat.not_lt.1 hx⟩] at h

end

section
variable {s : State} {r : Recovery}

theorem recordRecovery_of_held {x : Recovery} (h : s.tps.heldRecovery = some x) :
    recordRecovery r s = (s.setTps { s.tps with heldRecovery := some (x.absorb r) }, none) := by
  rw [recordRecovery, h]

theorem recordRecovery_of_place (h : s.tps.heldRecovery = none) (hp : s.rws.hasPlace = true) :
    recordRecovery r s = handOver .recovery r.job r.body false none s := by
  rw [recordRecovery, h]
  simp only [handOver_of_place hp]

theorem recordRecovery_of_no_place (h : s.tps.heldRecovery = none) (hp : s.rws.hasPlace = false)
    (hn : s.rws.nextSeq ≤ 4294967295 ∨ s.rws.exhausted = true) :
    recordRecovery r s = (s.setTps { s.tps with heldRecovery := some r }, none) := by
  rw [recordRecovery, h]
  simp only [handOver_of_no_place hp hn]

end

/-- Settles O47: the end of acquisition by what it counts, and the end of start-up by its record. -/
theorem acquisitionEndStartsTheInputs : Obligations.AcquisitionEndStartsTheInputs := by
  refine ⟨?_, ?_⟩
  · intro dt s hs h
    have hrep : h.reports = [] := (State.elapse_reports dt s).trans hs.2
    rw [show s.sfe.acquisitionEnded = h.sfe.acquisitionEnded by simp [h],
      show s.sfe.g0 = h.sfe.g0 by simp [h], show s.sfe.g1 = h.sfe.g1 by simp [h],
      show s.sfe.g2 = h.sfe.g2 by simp [h], show s.sfe.g3 = h.sfe.g3 by simp [h],
      show s.rrc = h.rrc by simp [h], show s.tps = h.tps by simp [h]]
    intro c
    refine ⟨fun hn => ?_, fun he ha h0 h1 h2 h3 => ?_⟩
    · refine congrArg Host.Outcome.next (event_quiet hs (if_neg ?_) (State.elapse_reports dt s))
      rw [acquisitionDue_iff]
      exact fun hd => hn.elim (fun hx => Bool.false_ne_true (hd.1.symm.trans hx)) (· hd.2)
    · intro counted met t
      have hend := acquisitionOver_of_reset (s := h) fun n => by
        cases n with
        | g0 => exact h0
        | g1 => exact h1
        | g2 => exact h2
        | g3 => exact h3
      have due : (if h.sfe.acquisitionDue then acquisitionOver h else h) = _ :=
        (if_pos (acquisitionDue_iff.2 ⟨he, ha⟩)).trans hend
      let w := h.setSfe h.sfe.acquisitionOver
      have hc : counted ↔ w.counts := Iff.rfl
      have ends (e : acquiredStep w = w.stepTaken counted) :
          (if h.sfe.acquisitionDue then acquisitionOver h else h) = tryEndStartUp t := by
        rw [due, e]
        rfl
      have waits (e : acquiredStep w = w.stepTaken counted) (hr : h.tps.storeReported = false) :
          c = .next (lcService t) := by
        refine congrArg Host.Outcome.next (event_quiet hs ((ends e).trans (tryEndStartUp_of_not ?_))
          (State.elapse_reports dt s))
        exact fun ho => Bool.false_ne_true (hr.symm.trans ho.2.2)
      refine ⟨fun hn _ => ?_, fun q n k ho hq hf ht => ⟨fun hi => ?_, fun hi hl _ => ?_⟩⟩
      · have e := acquiredStep_of_no_index hc hrep (hn.imp_right fun hn r hr =>
          hn r (List.mem_append_left _ (List.mem_append_left _ (Option.mem_toList.2 hr))))
        exact ⟨waits e, fun _ => congrArg Host.Outcome.next (event_finish hs (ends e))⟩
      · refine congrArg Host.Outcome.next (event_finish hs ?_)
        rw [due, acquiredStep_of_reached hc k ho hq hf ht hi.symm]
        rfl
      · exact waits (acquiredStep_of_not_reached hc k ho hq hf ht hrep hl (Ne.symm hi))
  · intro u top clock over_ ended running
    refine ⟨tryEndStartUp_of_not, fun ho hk => ?_, fun ho hk => ?_⟩
    · have e := tryEndStartUp_of_over (u := u) ho
      rw [hk] at e
      exact e
    · have start := tryEndStartUp_of_over (u := u) ho
      rw [hk] at start
      intro gap cat add e rec_ told
      have hc : cat = gapCategory u.bu := (gapCategory_eq u.bu).symm
      have he : accrueGap gap (u.setTps { running with recoveryPending := false }) = e := by
        show _ = (match cat with | none => _ | some c => _)
        rw [hc]
        cases hg : gapCategory u.bu with
        | none => exact accrueGap_of_none hg
        | some c => exact accrueGap_of_some hg
      have hr : newRecovery gap u.bu.lossCat (u.setTps running) = rec_ := by
        show _ = Recovery.mk _ _ _ _ cat _ _ _ _ _
        rw [hc]
        rfl
      have tells {v : State} {n : Option Nat} (hv : recordRecovery rec_ e = (v, n))
          (hb : v.bu = e.bu) (hh : v.hs = e.hs) : told v n := by
        refine start.trans (congrArg (fun v => testFinal (settle (loaderTest v))) ?_)
        refine (endWarm_of_recorded (v := v) (n := n) ?_ ?_ ?_).trans ?_
        · rw [hr.symm, he.symm] at hv
          exact hv
        · rw [hb, ← he]
          exact gapCategory_accrueGap
        · rw [hh, ← he]
          exact accrueGap_hs
        · rw [hc]
          rfl
      have ht : e.tps = { running with recoveryPending := false } := he ▸ accrueGap_tps
      have hw : e.rws = u.rws := he ▸ accrueGap_rws
      have hheld : e.tps.heldRecovery = u.tps.heldRecovery := by rw [ht]
      refine ⟨fun x hx => ?_, fun hx => ⟨fun hp => ?_, fun hp hn => ?_⟩⟩
      · exact tells (recordRecovery_of_held (hheld.trans hx)) rfl rfl
      · have p := recordRecovery_of_place (r := rec_) (hheld.trans hx) (hw ▸ hp)
        rw [handOver_of_place (hw ▸ hp), hw, ht] at p
        exact tells p rfl rfl
      · exact tells (recordRecovery_of_no_place (hheld.trans hx) (hw ▸ hp) (hw ▸ hn)) rfl rfl

end Sys2Proof.Machine
end

section
/-! PROOFS. Mud circulation: the pump and meter figures, declared volumes, the latches and hole watch. -/

namespace Sys2Proof.Machine

/-! ## SET PUMP and SET RETURN METER (R20) -/

/-- A value stays where its range holds it (R182). -/
theorem clamped_eq_iff {low high : Nat} (h : low ≤ high) {v : Nat} :
    max (low : Int) (min (high : Int) (v : Int)) = (v : Int) ↔ low ≤ v ∧ v ≤ high := by omega

/-- The figures of a pump that there is, and the reply by their ranges. -/
theorem ownSetPump_of_pump {pump : Byte} {i : Nat} (h : (pump = 1 ∧ i = 9) ∨ (pump = 2 ∧ i = 11))
    (d e : Nat) (s : State) : ownSetPump pump d e s =
      let x : Int := max 500 (min 30000 (d : Int))
      let y : Int := max 700 (min 1000 (e : Int))
      (s.setParams ((s.params.set i x).set (i + 1) y),
        if 500 ≤ d ∧ d ≤ 30000 ∧ 700 ≤ e ∧ e ≤ 1000 then .ok else .clamp (beInt 2 x ++ beInt 2 y)) := by
  have hx := clamped_eq_iff (low := 500) (high := 30000) (by decide) (v := d)
  have hy := clamped_eq_iff (low := 700) (high := 1000) (by decide) (v := e)
  have hr : (500 ≤ d ∧ d ≤ 30000 ∧ 700 ≤ e ∧ e ≤ 1000) ↔
      max 500 (min 30000 (d : Int)) = d ∧ max 700 (min 1000 (e : Int)) = e := by omega
  simp only [hr]
  rcases h with ⟨rfl, rfl⟩ | ⟨rfl, rfl⟩ <;> rfl

/-- The volume per pulse, and the reply by its range. -/
theorem ownSetReturnMeter_eq (k : Nat) (s : State) : ownSetReturnMeter k s =
    let x : Int := max 10 (min 5000 (k : Int))
    (s.setParams (s.params.set 13 x), if 10 ≤ k ∧ k ≤ 5000 then .ok else .clamp (beInt 2 x)) := by
  have hr : (10 ≤ k ∧ k ≤ 5000) ↔ max 10 (min 5000 (k : Int)) = k := by omega
  simp only [hr]
  rfl

/-- Settles O19: the owner stores the clamped figures, and the link stays free. -/
theorem pumpAndMeterFiguresAreStored : Obligations.PumpAndMeterFiguresAreStored := by
  intro dt tag s hs h
  have stores {r : Request} {l : List Int} {rep : Reply} (e : own r h = (h.setParams l, rep)) :
      requestRow dt tag r s = (h.setParams l).answering tag r rep :=
    requestRow_of_own hs e (by simpa [h] using hs.2.1) (heard_free hs.2.2)
  have hp : h.params = s.params := heard_params
  refine ⟨fun pump d e h1 h2 => congrArg _ (requestRow_unchanged hs ?_),
    fun d e pump i hi => congrArg _ (stores ?_), fun k => congrArg _ (stores ?_)⟩
  · have hn : pumpOfCode pump = none := (if_neg h1).trans (if_neg h2)
    show ownSetPump pump d.toNat e.toNat h = _
    rw [ownSetPump, hn]
    rfl
  · exact hp ▸ ownSetPump_of_pump hi d.toNat e.toNat h
  · exact hp ▸ ownSetReturnMeter_eq k.toNat h

end Sys2Proof.Machine
end

section
namespace Sys2Proof.Machine

/-! ## DECLARE ADDITION (R23, R39) -/

/-- A declared volume at the monitor: the window in progress, and the reference in HOLE WATCH. -/
theorem declareVolume_eq (v : Int) (s : State) : declareVolume v s = s.setCm
    { s.cm with
      win := s.cm.win.map (fun w =>
        { w with declared := max (-100000000) (min 100000000 (w.declared + v)) })
      ref := if s.cm.mon = .holeWatch then
          s.cm.ref.map (fun x => x + (v * 10).tdiv s.inForce.area)
        else s.cm.ref } := by
  by_cases hm : s.cm.mon = .holeWatch
  · rw [declareVolume, if_pos hm, if_pos hm]; rfl
  · rw [declareVolume, if_neg hm, if_neg hm]; rfl

/-- Settles O23: the two refusals in order, and the volume at the monitor. -/
theorem declaredVolumesJoinTheWindow : Obligations.DeclaredVolumesJoinTheWindow := by
  intro dt tag v s hs h
  rw [show s.cm.mon = h.cm.mon by simp [h, State.heard],
    show s.cm.win = h.cm.win by simp [h, State.heard],
    show s.cm.ref = h.cm.ref by simp [h, State.heard]]
  intro c
  have hrep : h.reports = [] := heard_reports.trans hs.2.1
  have same {rep : Reply} (e : ownDeclareAddition v.toInt h = (h, rep)) :
      c = .next (h.answering tag (.declareAddition v) rep) := congrArg _ (requestRow_unchanged hs e)
  refine ⟨fun hm => same (if_pos hm), fun hm hv => same ((if_neg hm).trans (if_pos hv)),
    fun hm h0 hl hh => ?_⟩
  have hv : ¬(v.toInt = 0 ∨ v.toInt < -2000000 ∨ 2000000 < v.toInt) := by omega
  have e : ownDeclareAddition v.toInt h = (declareVolume v.toInt h, .ok) :=
    (if_neg hm).trans (if_neg hv)
  rw [declareVolume_eq] at e
  exact congrArg _ (requestRow_of_own hs e hrep (heard_free hs.2.2))

/-! ## ACCEPT LATCH (R34) -/

/-- A cleared latch's record and counts, and its notice (R25). -/
theorem clearLatch_loss_of_set {cause : ClearCause} {s : State} (h : s.cm.lossLatch ≠ none) :
    clearLatch .loss cause s = hsMonitor
      ((s.setCm { s.cm with lossLatch := none, lossSus := 0, lossClr := 0 }).raise
        (.latchCleared .loss cause)) := if_pos (Option.isSome_iff_ne_none.2 h)

theorem clearLatch_gain_of_set {cause : ClearCause} {s : State} (h : s.cm.gainLatch ≠ none) :
    clearLatch .gain cause s = hsGainCleared
      ((s.setCm { s.cm with gainLatch := none, gainSus := 0, gainClr := 0 }).raise
        (.latchCleared .gain cause)) := if_pos (Option.isSome_iff_ne_none.2 h)

theorem clearLatch_loss_of_clear {cause : ClearCause} {s : State} (h : s.cm.lossLatch = none) :
    clearLatch .loss cause s = s := if_neg (by simp [h])

theorem clearLatch_gain_of_clear {cause : ClearCause} {s : State} (h : s.cm.gainLatch = none) :
    clearLatch .gain cause s = s := if_neg (by simp [h])

section
variable {s : State}

/-- The GAIN latch's clearing concerns a sequencer that waits, and no other (R90, R98). -/
theorem hsGainCleared_of_not_waiting (h : s.hs.seq ≠ .waiting) : hsGainCleared s = s :=
  if_pos (by simpa using h)

/-- The stage of a gain wait begins (R90). -/
theorem hsGainCleared_of_gainWait {o : OpRec} (h : s.hs.seq = .waiting) (ho : s.hs.op = some o)
    (hb : o.begun = false) : hsGainCleared s = beginStage o.stage s := by
  unfold hsGainCleared
  rw [if_neg (by simp [h]), ho]
  exact if_neg (by simp [hb])

end

theorem ownAcceptLatch_loss (s : State) :
    ownAcceptLatch 1 s = done (settle (clearLatch .loss .accepted s)) := rfl

theorem ownAcceptLatch_gain (s : State) : ownAcceptLatch 2 s =
    if s.cm.mon = .idle ∧ s.cm.fcResult = .passed then done (settle (clearLatch .gain .accepted s))
    else refused .interlock s := rfl

theorem ownAcceptLatch_of_other {code : Byte} (h1 : code ≠ 1) (h2 : code ≠ 2) (s : State) :
    ownAcceptLatch code s = refused .range s := by
  have hn : LatchName.ofCode code = none := (if_neg h1).trans (if_neg h2)
  rw [ownAcceptLatch, hn]

/-- Settles O24: by the latch's code, and whether the latch is set. -/
theorem acceptLatchClearsALatch : Obligations.AcceptLatchClearsALatch := by
  intro dt tag l s hs h c
  rw [show s.cm.mon = h.cm.mon by simp [h, State.heard],
    show s.cm.fcResult = h.cm.fcResult by simp [h, State.heard],
    show s.cm.lossLatch = h.cm.lossLatch by simp [h, State.heard],
    show s.cm.gainLatch = h.cm.gainLatch by simp [h, State.heard],
    show s.hs.seq = h.hs.seq by simp [h, State.heard],
    show s.hs.op = h.hs.op by simp [h, State.heard]]
  have hrep : h.reports = [] := heard_reports.trans hs.2.1
  have same {rep : Reply} (e : ownAcceptLatch l h = (h, rep)) :
      c = .next (h.answering tag (.acceptLatch l) rep) := congrArg _ (requestRow_unchanged hs e)
  have clears {t : State} (k : Keeps h t) (e : ownAcceptLatch l h = done (settle t)) :
      c = .next ((settle t).replying tag (.acceptLatch l) .ok) :=
    congrArg _ (requestRow_replying_own hs e
      ((settle_keeps k).clearing.trans (heard_free hs.2.2).2.2.2.2.2))
  refine ⟨fun h1 h2 => same (ownAcceptLatch_of_other h1 h2 h), ?_, ?_⟩
  · rintro rfl
    refine ⟨fun hn => same ?_, fun hn => clears (hsMonitor_keeps (Keeps.refl h).setCm.raise) ?_⟩
    · rw [ownAcceptLatch_loss, clearLatch_loss_of_clear hn, settle_of_nil hrep]
      rfl
    · rw [ownAcceptLatch_loss, clearLatch_loss_of_set hn]
  · rintro rfl
    refine ⟨fun hc => same (if_neg hc), fun hm hf hn => same ?_, fun hm hf hn => ?_⟩
    · rw [ownAcceptLatch_gain, if_pos ⟨hm, hf⟩, clearLatch_gain_of_clear hn, settle_of_nil hrep]
      rfl
    · intro t
      have e : ownAcceptLatch 2 h = done (settle (hsGainCleared t)) := by
        rw [ownAcceptLatch_gain, if_pos ⟨hm, hf⟩, clearLatch_gain_of_set hn]
      have kt : Keeps h t := (Keeps.refl h).setCm.raise
      refine ⟨clears (hsGainCleared_keeps kt) e, fun hw => ?_, fun o hw ho hb => ?_⟩
      · rw [hsGainCleared_of_not_waiting (s := t) hw, settle_of_nil (s := t) hrep] at e
        exact congrArg _ (requestRow_of_own hs e hrep (kt.free (heard_free hs.2.2)))
      · exact clears (beginStage_keeps kt) (e.trans (by rw [hsGainCleared_of_gainWait (s := t) hw ho hb]))

end Sys2Proof.Machine
end

section
namespace Sys2Proof.Machine

/-! ## QUIET, tested at a change of the monitor's (R81) -/

section
variable {s : State}

/-- QUIET goes on untested, or not met. -/
theorem hsMonitor_of_not (h : ∀ o, s.hs.op = some o →
    o.stage ≠ .quiet ∨ s.hs.seq ≠ .waiting ∨ o.begun = false ∨ quietMet s = false) :
    hsMonitor s = s := by
  unfold hsMonitor hsTest
  cases ho : s.hs.op with
  | none => rfl
  | some o =>
    simp only []
    split
    · next hq =>
      refine if_neg fun hc => ?_
      have hm : conditionMet o s = quietMet s := by simp [conditionMet, hq]
      obtain ⟨⟨hw, hb⟩, hm'⟩ := by simpa only [hm, Bool.and_eq_true, decide_eq_true_eq] using hc
      rcases h o ho with h | h | h | h
      · exact h hq
      · exact h hw
      · simp [h] at hb
      · simp [h] at hm'
    · rfl

/-- QUIET that is met is to complete (R79, R81). -/
theorem hsMonitor_of_met {o : OpRec} (ho : s.hs.op = some o) (hq : o.stage = .quiet)
    (hw : s.hs.seq = .waiting) (hb : o.begun = true) (hm : quietMet s = true) :
    hsMonitor s = s.report (.stageMet .quiet) := by
  have hc : conditionMet o s = true := by simp [conditionMet, hq, hm]
  simp [hsMonitor, hsTest, ho, hq, hw, hb, hc]

theorem hsMonitor_of_not_waiting (h : s.hs.seq ≠ .waiting) : hsMonitor s = s :=
  hsMonitor_of_not fun _ _ => .inr (.inl h)

theorem hsMonitor_of_not_quiet (h : s.cm.quiet = false) : hsMonitor s = s :=
  hsMonitor_of_not fun _ _ => .inr (.inr (.inr (by simp [quietMet, h])))

end

/-! ## ENTER HOLE WATCH and LEAVE HOLE WATCH (R35, R37, R40) -/

/-- Expected off, the switches that are on differ (R12). -/
theorem mismatchOf_off (debounced sel : SwitchSet) : mismatchOf debounced sel 0 = debounced &&& sel :=
  congrArg (· &&& sel) BitVec.xor_zero

/-- The entry: group 2 written with its flag clear, and the captures begun (R35). -/
theorem enterWatch_eq (s : State) : enterWatch s =
    let m := s.sfe.debounced &&& watchSet
    let t := (s.setSfe { s.sfe with g2 := ⟨watchSet, 0, m, m != 0⟩ }).setCm
      { s.cm with
        mon := .watchEntry, span := [], secPulses := 0, capSum := 0, capCount := 0, entryVol := 0
        capTimer := some 60000 }
    if m = 0 then hsMonitor t else abortEntry .switch t := by
  have hp : (0 : SwitchSet) &&& watchSet = 0 := BitVec.zero_and
  simp only [enterWatch, writeGroup, clearGroupFlag, State.setGroup, State.group, mismatchOf_off, hp,
    State.setCm_sfe, State.setSfe_sfe, Bool.false_or, bne_iff_ne, ne_eq, ite_not]
  rfl

/-- The leaving (R40). -/
theorem leaveWatch_eq (s : State) : leaveWatch s = hsMonitor
    ((s.setSfe { s.sfe with g2 := ⟨0, 0, 0, s.sfe.g2.flag⟩ }).setCm
      { s.cm with
        mon := .idle, span := [], secPulses := 0, capSum := 0, capCount := 0, entryVol := 0
        capTimer := none, ref := none, hiStep := 0, loStep := 0 }) := by
  rw [leaveWatch, disarmGroup_eq]; rfl

/-- Settles O25: the refusals in order, the entry by group 2's match, and the leaving. -/
theorem holeWatchIsEnteredAndLeft : Obligations.HoleWatchIsEnteredAndLeft := by
  intro dt tag s hs h
  rw [show s.cm.mon = h.cm.mon by simp [h, State.heard],
    show s.hs.seq = h.hs.seq by simp [h, State.heard],
    show s.sfe.pit = h.sfe.pit by simp [h, State.heard],
    show s.sfe.g2 = h.sfe.g2 by simp [h, State.heard]]
  intro c watched m
  have hrep : h.reports = [] := heard_reports.trans hs.2.1
  have same {r : Request} {rep : Reply} (e : own r h = (h, rep)) :
      requestRow dt tag r s = h.answering tag r rep := requestRow_unchanged hs e
  have enters (hm : h.cm.mon = .idle) (hq : h.hs.seq = .idle) (hp : h.sfe.pit.st = .good)
      {t : State} (e : enterWatch h = t) (hr : t.reports = []) :
      c = .next (t.answering tag .enterHoleWatch .ok) := by
    have hf : h.sfe.pit.isFaulted = false := by simp [Analogue.isFaulted, hp]
    have ho : ownEnterWatch h = (t, .ok) := by
      rw [ownEnterWatch, if_pos ⟨hm, hq⟩, hf, e, settle_of_nil hr]
      rfl
    exact congrArg _ (requestRow_of_own hs ho hr
      ((e ▸ enterWatch_keeps (Keeps.refl h)).free (heard_free hs.2.2)))
  refine ⟨fun hn => congrArg _ (same (r := .enterHoleWatch) (if_neg fun hc => ?_)),
    fun hm hq hp => congrArg _ (same (r := .enterHoleWatch) ((if_pos ⟨hm, hq⟩).trans (if_pos ?_))),
    fun hm hq hp => ⟨fun hz => enters hm hq hp ?_ hrep, fun hz => enters hm hq hp ?_ hrep⟩,
    fun h1 h2 => congrArg _ (same (r := .leaveHoleWatch) (if_neg (not_or.2 ⟨h1, h2⟩))), fun hm => ?_⟩
  · exact hn.elim (· hc.1) (· hc.2)
  · simpa [Analogue.isFaulted] using hp
  · have hw : h.hs.seq ≠ .waiting := by simp [hq]
    rw [enterWatch_eq]
    refine (if_pos hz).trans ((hsMonitor_of_not_waiting (by exact hw)).trans ?_)
    rw [show h.sfe.debounced &&& watchSet = 0 from hz]
    rfl
  · have hw : h.hs.seq ≠ .waiting := by simp [hq]
    have hf : (m != 0) = true := by simpa using hz
    rw [enterWatch_eq]
    refine (if_neg hz).trans ((abortEntry_eq _ _).trans ((hsMonitor_of_not_waiting (by exact hw)).trans ?_))
    rw [← hf]
    rfl
  · have e : ownLeaveWatch h = done (settle (leaveWatch h)) := if_pos hm
    have k := settle_keeps (leaveWatch_keeps (Keeps.refl h))
    rw [leaveWatch_eq] at e k
    exact congrArg _ (requestRow_replying_own (r := .leaveHoleWatch) hs e
      (k.clearing.trans (heard_free hs.2.2).2.2.2.2.2))

end Sys2Proof.Machine
end

section
/-! PROOFS. Mud circulation: strokes and the pumps' gap timers. -/

namespace Sys2Proof.Machine

/-! ## What an event row answers -/

section
variable {s u : State} {dt : Nat} {f : State → State}

theorem next_of_finish (h : s.awake) (e : f (s.elapse dt) = u) :
    (Host.Outcome.next (event dt f s) : Out) = .next (finish u) := congrArg _ (event_finish h e)

theorem next_of_quiet (h : s.awake) (e : f (s.elapse dt) = u) (he : u.reports = s.reports) :
    (Host.Outcome.next (event dt f s) : Out) = .next (lcService u) := congrArg _ (event_quiet h e he)

/-- A row before its time changes nothing but the timers (log 2). -/
theorem next_of_early (h : s.awake) (e : f (s.elapse dt) = s.elapse dt) :
    (Host.Outcome.next (event dt f s) : Out) = .next (lcService (s.elapse dt)) :=
  next_of_quiet h e (State.elapse_reports dt s)

end

/-- A timer has run out where it stands at 0. -/
theorem over_iff {t : Option Nat} : Timer.over t = true ↔ t = some 0 := beq_iff_eq

/-! ## The pump record and the window (R18, R21) -/

section
variable {r : PumpRec} {stamp last : Nat}

theorem PumpRec.stroke_of_stopped (h : r.st = .stopped) :
    r.stroke stamp = { r with st := .starting, last := some stamp, gap := some 20000 } := by
  rw [PumpRec.stroke, h]; rfl

theorem PumpRec.stroke_of_turning (h : r.st ≠ .stopped) (hl : r.last = some last) : r.stroke stamp =
    let i := max 1 ((stamp + (2 ^ 32 - last)) % 2 ^ 32)
    { r with
      st := .running, last := some stamp, interval := some i
      gap := some (max 2000 (min 20000 (3 * i))) } := by
  unfold PumpRec.stroke
  split
  · contradiction
  · rw [hl]; rfl

end

/-- A pump's record replaced at a stroke, which goes into the window in progress. -/
def State.stroked (p : Pump) (r : PumpRec) (s : State) : State :=
  s.setCm { s.cm.setPump p r with win := s.cm.win.map (Window.stroke p) }

@[simp] theorem stroked_mon (p : Pump) (r : PumpRec) (s : State) : (s.stroked p r).cm.mon = s.cm.mon := by
  cases p <;> rfl

/-- A window's count of a pump's strokes stops at 60, with the overflow mark set beyond (R21). -/
theorem Window.stroke_eq (p : Pump) : Window.stroke p = fun w => match p with
    | .one => if w.strokes1 < 60 then { w with strokes1 := w.strokes1 + 1 } else { w with over1 := true }
    | .two =>
      if w.strokes2 < 60 then { w with strokes2 := w.strokes2 + 1 } else { w with over2 := true } := by
  funext w
  cases p with
  | one => by_cases h : w.strokes1 < 60 <;> simp [Window.stroke, countStroke, Config.windowStrokeTop, h]
  | two => by_cases h : w.strokes2 < 60 <;> simp [Window.stroke, countStroke, Config.windowStrokeTop, h]

/-- With a pump that turns the pumps are not quiet (R19). -/
theorem quiet_setPump {c : Cm} {p : Pump} {r : PumpRec} (h : r.st ≠ .stopped) :
    (c.setPump p r).quiet = false := by
  cases p <;> simp [Cm.quiet, Cm.setPump, h]

/-! ## A stroke at the monitor (R18, R29, R32, R37, R40) -/

section
variable {p : Pump} {s : State} {last : Nat}

/-- A stroke by what it makes of its pump's record: a change is told, a hole-watch entry aborts, and a
pump that leaves STOPPED reaches the monitor's state and the sequencer. -/
theorem cmStroke_eq (p : Pump) (s : State) : cmStroke p s =
    let b := s.cm.pump p
    let a := b.stroke s.sfe.ms
    let t := if a.st = b.st then s.stroked p a else (s.stroked p a).raise (.pumpChange p a.st a.rate)
    let u := if t.cm.mon = .watchEntry then abortEntry .stroke t else t
    if b.st = .stopped then hsPump (hsMonitor (monitorPumpLeft u))
    else if a.st = b.st then u else hsMonitor u := by
  cases p <;> rfl

/-- A pump that leaves STOPPED, with its notice. -/
def State.started (p : Pump) (s : State) : State :=
  (s.stroked p { s.cm.pump p with st := .starting, last := some s.sfe.ms, gap := some 20000 }).raise
    (.pumpChange p .starting 0)

@[simp] theorem started_mon : (s.started p).cm.mon = s.cm.mon := stroked_mon ..

/-- The pumps are not quiet then, and no change of the monitor's meets QUIET (R81). -/
@[simp] theorem quiet_started : (s.started p).cm.quiet = false := quiet_setPump (c := s.cm) (by simp)

theorem cmStroke_of_stopped (h : (s.cm.pump p).st = .stopped) (hi : (s.cm.pump p).interval = none) :
    cmStroke p s = hsPump (hsMonitor (monitorPumpLeft
      (if s.cm.mon = .watchEntry then abortEntry .stroke (s.started p) else s.started p))) := by
  have hr : PumpRec.rate { s.cm.pump p with st := .starting, last := some s.sfe.ms, gap := some 20000 } =
      0 := by rw [PumpRec.rate, hi]
  rw [cmStroke_eq]
  simp only [PumpRec.stroke_of_stopped h, h, hr, reduceCtorEq, if_false, if_true, State.raise_cm,
    stroked_mon]
  rfl

section
variable (hm : s.cm.mon ≠ .watchEntry) (h : (s.cm.pump p).last = some last)
include hm h

/-- A pump that runs goes on running. -/
theorem cmStroke_of_running (hs : (s.cm.pump p).st = .running) :
    cmStroke p s = s.stroked p ((s.cm.pump p).stroke s.sfe.ms) := by
  rw [cmStroke_eq]
  simp only [PumpRec.stroke_of_turning (hs ▸ by simp) h, hs, hm, if_true, if_false,
    reduceCtorEq, stroked_mon]

/-- The second stroke of a pump makes it RUNNING. -/
theorem cmStroke_of_starting (hs : (s.cm.pump p).st = .starting) :
    let r := (s.cm.pump p).stroke s.sfe.ms
    cmStroke p s = hsMonitor ((s.stroked p r).raise (.pumpChange p .running r.rate)) := by
  rw [cmStroke_eq]
  simp only [PumpRec.stroke_of_turning (hs ▸ by simp) h, hs, hm, if_false, reduceCtorEq,
    State.raise_cm, stroked_mon]

end

/-! What the leaving does at the monitor, by its state, the pumps not quiet. -/

/-- SETTLING entered, as a bit depth sets its count (R29). -/
def State.settling (s : State) : State := s.setCm
  { s.cm with
    mon := .settling, settle := min 14 (2 + s.dib.depth / 1000 / 50), span := [], secPulses := 0 }

theorem enterSettling_eq (s : State) : enterSettling s = hsMonitor s.settling := rfl

theorem enterSettling_of_not_quiet (h : s.cm.quiet = false) : enterSettling s = s.settling :=
  (enterSettling_eq s).trans (hsMonitor_of_not_quiet (s := s.settling) h)

/-- An entry aborted while a pump turns, which meets no QUIET. -/
theorem abortEntry_of_not_quiet {cause : AbortCause} (h : s.cm.quiet = false) : abortEntry cause s =
    ((s.setSfe { s.sfe with g2 := ⟨0, 0, 0, s.sfe.g2.flag⟩ }).setCm
      { s.cm with
        mon := .idle, span := [], secPulses := 0, capTimer := none, capSum := 0, capCount := 0
        entryVol := 0 }).raise (.entryAborted cause) :=
  (abortEntry_eq cause s).trans (hsMonitor_of_not_quiet (by exact h))

theorem monitorPumpLeft_of_idle (h : s.cm.mon = .idle) : monitorPumpLeft s = enterSettling s := by
  simp only [monitorPumpLeft, h]

theorem monitorPumpLeft_of_circulating (h : s.cm.mon = .settling ∨ s.cm.mon = .watching) :
    monitorPumpLeft s = s := by
  rcases h with h | h <;> simp only [monitorPumpLeft, h]

section
variable (hq : s.cm.quiet = false)
include hq

/-- The entry aborts, and SETTLING follows (R37). -/
theorem left_of_watchEntry : hsMonitor (monitorPumpLeft (abortEntry .stroke s)) =
    ((s.setSfe { s.sfe with g2 := ⟨0, 0, 0, s.sfe.g2.flag⟩ }).setCm
      { s.cm with
        capTimer := none, capSum := 0, capCount := 0, entryVol := 0, mon := .settling
        settle := min 14 (2 + s.dib.depth / 1000 / 50), span := [], secPulses := 0 }).raise
          (.entryAborted .stroke) := by
  rw [abortEntry_of_not_quiet hq, monitorPumpLeft_of_idle (by rfl),
    enterSettling_of_not_quiet (by exact hq)]
  exact hsMonitor_of_not_quiet hq

/-- The check ends NOT COMPLETED, and SETTLING follows (R32). -/
theorem left_of_flowCheck (h : s.cm.mon = .flowCheck) : hsMonitor (monitorPumpLeft s) =
    (s.setCm
      { s.cm with
        fcResult := .notCompleted, fcSecond := some s.tps.clock, fcVolume := some s.cm.fcVol
        fcTimer := none, mon := .settling, settle := min 14 (2 + s.dib.depth / 1000 / 50), span := []
        secPulses := 0 }).raise (.flowCheck .notCompleted s.tps.clock s.cm.fcVol) := by
  simp only [monitorPumpLeft, h]
  rw [enterSettling_of_not_quiet (by exact hq)]
  exact hsMonitor_of_not_quiet hq

/-- The reference is dropped and group 2 disarmed, and SETTLING follows (R40). -/
theorem left_of_holeWatch (h : s.cm.mon = .holeWatch) : hsMonitor (monitorPumpLeft s) =
    (s.setSfe { s.sfe with g2 := ⟨0, 0, 0, s.sfe.g2.flag⟩ }).setCm
      { s.cm with
        ref := none, hiStep := 0, loStep := 0, mon := .settling
        settle := min 14 (2 + s.dib.depth / 1000 / 50), span := [], secPulses := 0 } := by
  simp only [monitorPumpLeft, h, disarmGroup_eq]
  rw [enterSettling_of_not_quiet (by exact hq)]
  exact hsMonitor_of_not_quiet hq

end

end

/-! ## The sequencer (R81, R91) -/

section
variable {u : State} {o : OpRec}

theorem acts_iff (ho : u.hs.op = some o) :
    u.hs.acts = true ↔ u.hs.seq = .running ∨ u.hs.seq = .waiting := by
  simp [Hs.acts, ho]

theorem hsPump_eq (ho : u.hs.op = some o) : hsPump u =
    if (u.hs.seq = .running ∨ u.hs.seq = .waiting) ∧
        o.stage ≠ .quiet ∧ ¬(o.stage = .unclamp ∧ o.begun = true) then
      (withdraw .handling (u.setHs
        { u.hs with seq := .held, cause := some (.held .pump none), stall := none })).raise
          (.opHeld o.op o.stage .pump none)
    else u := by
  have hc : (u.hs.acts && o.stage != .quiet && !(o.stage == .unclamp && o.begun)) = true ↔
      (u.hs.seq = .running ∨ u.hs.seq = .waiting) ∧
        o.stage ≠ .quiet ∧ ¬(o.stage = .unclamp ∧ o.begun = true) := by
    rw [Bool.and_eq_true, Bool.and_eq_true, acts_iff ho, and_assoc]
    simp [imp_iff_not_or]
  simp only [hsPump, ho, hc, holdOp]

end

/-! ## A gap timer that runs out (R19, R31) -/

/-- A pump that has become STOPPED, with its notice. -/
def State.stopped (p : Pump) (s : State) : State :=
  (s.setCm (s.cm.setPump p
    { s.cm.pump p with st := .stopped, interval := none, gap := none, remainder := 0 })).raise
      (.pumpChange p .stopped 0)

/-- By whether both pumps then stand while the monitor circulates. -/
theorem cmPumpStopped_eq (p : Pump) (s : State) : cmPumpStopped p s =
    if ((s.stopped p).cm.pump1.st = .stopped ∧ (s.stopped p).cm.pump2.st = .stopped) ∧
        (s.cm.mon = .settling ∨ s.cm.mon = .watching) then enterFlowCheck (s.stopped p)
    else hsMonitor (s.stopped p) := by
  have hm : (s.stopped p).cm.mon = s.cm.mon := by cases p <;> rfl
  have hc : ((s.stopped p).cm.quiet
        && ((s.stopped p).cm.mon == .settling || (s.stopped p).cm.mon == .watching)) = true ↔
      ((s.stopped p).cm.pump1.st = .stopped ∧ (s.stopped p).cm.pump2.st = .stopped) ∧
        (s.cm.mon = .settling ∨ s.cm.mon = .watching) := by
    simp [Cm.quiet, hm]
  simp only [← hc]
  rfl

/-- Settles O48: a stroke by its pump's state and the monitor's, and a gap timer that runs out. -/
theorem strokesRunThePumps : Obligations.StrokesRunThePumps := by
  refine ⟨?_, fun u => ⟨fun hn => ?_, fun o ho => ⟨fun h => (hsPump_eq ho).trans (if_neg h),
    fun ha hp => (hsPump_eq ho).trans (if_pos ⟨ha, hp⟩),
    fun h => hsMonitor_of_not fun o' ho' => Option.some.inj (ho.symm.trans ho') ▸ h,
    fun hq hw hb hm => hsMonitor_of_met ho hq hw hb hm⟩⟩⟩
  · intro dt p s hs h
    rw [show s.sfe.acquisitionEnded = h.sfe.acquisitionEnded by simp [h],
      show s.sfe.stroke1 = h.sfe.stroke1 by simp [h], show s.sfe.stroke2 = h.sfe.stroke2 by simp [h],
      show s.sfe.g2 = h.sfe.g2 by simp [h], show s.cm.mon = h.cm.mon by simp [h],
      show s.cm.win = h.cm.win by simp [h], show s.cm.fcVol = h.cm.fcVol by simp [h],
      show s.dib = h.dib by simp [h], show s.tps = h.tps by simp [h],
      show s.pFlowPeriod = h.pFlowPeriod by simp [h, State.pFlowPeriod, State.paramNat, State.param]]
    intro c b f counts with_
    let w := h.setSfe f
    have hw (r : PumpRec) : with_ r = w.stroked p r := by
      simp only [with_, counts, State.stroked, Window.stroke_eq]
      rfl
    have takes : takeStroke p h = if h.sfe.acquisitionEnded then cmStroke p w else h := by
      cases p <;> rfl
    have hms : w.sfe.ms = h.sfe.ms := by cases p <;> rfl
    refine ⟨fun ha => next_of_early hs (takes.trans (if_neg (by simp [ha]))), fun last ha hm hb hl => ?_,
      fun ha hb hi => ?_, fun k hk hp => ?_, fun hg => ?_⟩
    · intro i r
      have hr : b.stroke w.sfe.ms = r := by rw [hms]; exact PumpRec.stroke_of_turning hb hl
      refine ⟨fun hst => ?_, fun hst => ?_⟩
      · rw [hw, ← hr]
        exact next_of_quiet hs (takes.trans ((if_pos ha).trans (cmStroke_of_running hm hl hst)))
          (State.elapse_reports dt s)
      · have e := cmStroke_of_starting (s := w) hm hl hst
        rw [show w.cm.pump p = b from rfl, hr] at e
        rw [hw]
        exact next_of_finish hs (takes.trans ((if_pos ha).trans e))
    · intro t
      have ht : t = w.started p := by
        simp only [t, hw, State.started, hms]
        rfl
      have starts {u : State} (e : cmStroke p w = u) : c = .next (finish u) :=
        next_of_finish hs (takes.trans ((if_pos ha).trans e))
      have e := cmStroke_of_stopped (s := w) hb hi
      have hq := quiet_started (p := p) (s := w)
      rw [← ht] at e hq
      have hmt : t.cm.mon = h.cm.mon := ht ▸ started_mon (s := w)
      have hfc : t.cm.fcVol = h.cm.fcVol := by cases p <;> rfl
      have hg : t.sfe.g2 = h.sfe.g2 := by cases p <;> rfl
      have left (hm : h.cm.mon ≠ .watchEntry) {u : State} (hu : hsMonitor (monitorPumpLeft t) = u) :
          c = .next (finish (hsPump u)) :=
        starts (by rw [e, if_neg (show w.cm.mon ≠ _ from hm), hu])
      refine ⟨fun hm => left (by simp [hm]) ?_, fun hm => left ?_ ?_, fun hm => starts (e.trans ?_),
        fun hm => left (by simp [hm]) ?_, fun hm => left (by simp [hm]) ?_⟩
      · rw [monitorPumpLeft_of_idle (hmt.trans hm)]
        rfl
      · rcases hm with hm | hm <;> simp [hm]
      · rw [monitorPumpLeft_of_circulating (hmt ▸ hm)]
      · rw [if_pos (show w.cm.mon = _ from hm), left_of_watchEntry hq, hg]
        rfl
      · rw [left_of_flowCheck hq (hmt.trans hm), hfc]
        rfl
      · rw [left_of_holeWatch hq (hmt.trans hm), hg]
        rfl
    · refine next_of_early hs (if_neg (over_iff.not.2 fun e => ?_))
      have : k = 0 := Option.some.inj (hk.symm.trans e)
      omega
    · intro t q checked
      have stops {u : State} (e : cmPumpStopped p h = u) :
          exec (.pumpGapTimerExpiry dt p) s = .next (finish u) :=
        next_of_finish hs ((if_pos (over_iff.2 hg)).trans e)
      have e := cmPumpStopped_eq p h
      exact ⟨fun hq hc => stops (e.trans (if_pos ⟨hq, hc⟩)), fun hn => stops (e.trans (if_neg hn))⟩
  · simp [hsPump, hsMonitor, hn]

end Sys2Proof.Machine
end

section
/-! PROOFS. Mud circulation: what the arbiter and the sequencer leave of the monitor. -/

namespace Sys2Proof.Machine

/-! ## Groups and the arbiter -/

section
variable (s : State) (r : Req)

@[simp] theorem writeGroup_cm (n : GroupNo) (x y : SwitchSet) : (writeGroup n x y s).1.cm = s.cm := by
  simp [writeGroup]
theorem cm_of_writeGroup {s t : State} {n : GroupNo} {x y : SwitchSet} {m : Bool}
    (e : writeGroup n x y s = (t, m)) : t.cm = s.cm := by simpa [e] using writeGroup_cm s n x y
@[simp] theorem disarmGroup_cm (n : GroupNo) : (disarmGroup n s).cm = s.cm := writeGroup_cm ..
@[simp] theorem clearGroupFlag_cm (n : GroupNo) : (clearGroupFlag n s).cm = s.cm := by
  simp [clearGroupFlag]
@[simp] theorem armGuard_cm : (armGuard s).1.cm = s.cm := writeGroup_cm ..
@[simp] theorem guardFailed_cm : (guardFailed r s).cm = s.cm := by simp [guardFailed]
@[simp] theorem driveIndex_cm : (driveIndex r s).cm = s.cm := rfl
@[simp] theorem driveValve_cm : (driveValve r s).cm = s.cm := rfl
@[simp] theorem awaitLock_cm : (awaitLock r s).cm = s.cm := rfl

@[simp] theorem tryGrant_cm : (tryGrant r s).1.cm = s.cm := by
  fun_cases tryGrant r s with
  | case1 => rfl
  | case2 _ _ _ e | case3 _ _ _ _ e | case4 _ _ _ _ e => simp [cm_of_writeGroup e]
  | case5 => rfl

@[simp] theorem passOn_cm (n : Nat) : (passOn n s).cm = s.cm := by
  induction n generalizing s with
  | zero => rfl
  | succ n ih =>
    unfold passOn
    split
    · rfl
    · next q a _ =>
      have ht := tryGrant_cm (s.setAha a) q
      rcases e : tryGrant q (s.setAha a) with ⟨t, held⟩
      rw [e] at ht
      cases held with
      | true => exact ht
      | false => exact (ih t).trans ht

@[simp] theorem stopHolder_cm : (stopHolder s).cm = s.cm := by
  unfold stopHolder
  split
  · rfl
  · simp only []
    split <;> simp

@[simp] theorem suspendHolder_cm : (suspendHolder r s).cm = s.cm := by simp [suspendHolder]

@[simp] theorem grantNow_cm : (grantNow r s).cm = s.cm := by
  have ht := tryGrant_cm s r
  unfold grantNow
  rcases e : tryGrant r s with ⟨t, held⟩
  rw [e] at ht
  cases held with
  | true => exact ht
  | false => exact (passOn_cm t _).trans ht

@[simp] theorem requestMotion_cm : (requestMotion r s).cm = s.cm := by
  fun_cases requestMotion r s <;> simp

@[simp] theorem withdraw_cm (c : Client) : (withdraw c s).cm = s.cm := by
  unfold withdraw; split <;> simp

@[simp] theorem loaderTest_cm : (loaderTest s).cm = s.cm := by 
  fun_cases loaderTest s <;> simp +zetaDelta

@[simp] theorem setHold_cm (b : Bool) : (setHold b s).cm = s.cm := by unfold setHold; split <;> simp

end

/-! ## The sequencer -/

section
variable (s : State)

/-- The builder's operations leave the monitor too. -/
theorem cm_of_offBuilder {s t : State} (h : t.offBuilder = s.offBuilder) : t.cm = s.cm :=
  congrArg (·.2.1) h

@[simp] theorem setDepthHold_cm (b : Bool) : (setDepthHold b s).cm = s.cm := by
  unfold setDepthHold
  split
  · rfl
  · exact (cm_of_offBuilder (decideDepth_offBuilder _)).trans rfl

@[simp] theorem hsTest_cm : (hsTest s).cm = s.cm := by
  fun_cases hsTest s <;> rfl

@[simp] theorem hsMonitor_cm : (hsMonitor s).cm = s.cm := by
  fun_cases hsMonitor s <;> simp

@[simp] theorem holdOp_cm (cause : HeldCause) (mism : Option SwitchSet) :
    (holdOp cause mism s).cm = s.cm := by
  fun_cases holdOp cause mism s <;> simp +zetaDelta

@[simp] theorem startStage_cm (o : OpRec) : (startStage o s).cm = s.cm := by
  unfold startStage
  simp only []
  split <;> split <;> simp

@[simp] theorem beginStage_cm (st : Stage) : (beginStage st s).cm = s.cm := by
  fun_cases beginStage st s with
  | case1 => rfl
  | case2 => rfl
  | case3 => rename_i e; exact (holdOp_cm ..).trans ((cm_of_writeGroup e).trans rfl)
  | case4 => rename_i e _; exact (startStage_cm ..).trans ((cm_of_writeGroup e).trans rfl)

@[simp] theorem startOp_cm (op : Op) (slot rod : Nat) (trip : Bool) :
    (startOp op slot rod trip s).cm = s.cm := by simp [startOp, clearStopFlags]

@[simp] theorem endTrip_cm (reason : TripEnd) : (endTrip reason s).cm = s.cm := by
  fun_cases endTrip reason s <;> rfl

@[simp] theorem tripNext_cm : (tripNext s).cm = s.cm := by 
  fun_cases tripNext s <;> simp

@[simp] theorem hsGainCleared_cm : (hsGainCleared s).cm = s.cm := by
  fun_cases hsGainCleared s <;> simp

end

end Sys2Proof.Machine
end

section
/-! PROOFS. Mud circulation: the latches after a window, the pit check and the divert (R25 to R28, R41). -/

namespace Sys2Proof.Machine

/-! ## The test of S (R25, R26) -/

section
variable {f : Force} {s : State} {src : LatchSrc} {figure : Int}

theorem setLatch_loss_of_set (h : s.cm.lossLatch ≠ none) : setLatch .loss src figure s = s :=
  if_pos (Option.isSome_iff_ne_none.2 h)

theorem setLatch_gain_of_set (h : s.cm.gainLatch ≠ none) : setLatch .gain src figure s = s :=
  if_pos (Option.isSome_iff_ne_none.2 h)

/-- A latch that was clear is set, with its notice (R25). -/
theorem setLatch_loss_of_clear (h : s.cm.lossLatch = none) : setLatch .loss src figure s =
    hsMonitor ((s.setCm { s.cm with lossLatch := some ⟨src, s.tps.clock, figure⟩, lossClr := 0 }).raise
      (.loss src figure)) := if_neg (by simp [h])

theorem setLatch_gain_of_clear (h : s.cm.gainLatch = none) : setLatch .gain src figure s =
    hsMonitor (autoDivert ((s.setCm
      { s.cm with gainLatch := some ⟨src, s.tps.clock, figure⟩, gainClr := 0 }).raise
        (.gain src figure none))) := if_neg (by simp [h])

/-- A latch is set by nothing but its own count. -/
@[simp] theorem setLatch_loss_gainSus : (setLatch .loss src figure s).cm.gainSus = s.cm.gainSus := by
  unfold setLatch
  simp only []
  split
  · rfl
  · rw [hsMonitor_cm]; rfl

/-! By the counts as the test of S leaves them. -/

theorem testBalance_of_short (hl : (s.cm.suspect f).lossSus < f.m)
    (hg : (s.cm.suspect f).gainSus < f.m) : testBalance f s = s.setCm (s.cm.suspect f) := by
  unfold testBalance
  simp only [State.setCm_cm, Nat.not_le.2 hl, if_false]
  exact if_neg (Nat.not_le.2 hg)

theorem testBalance_of_loss (hl : f.m ≤ (s.cm.suspect f).lossSus)
    (hg : (s.cm.suspect f).gainSus < f.m) : testBalance f s =
      setLatch .loss .balance (s.cm.suspect f).sum (s.setCm (s.cm.suspect f)) := by
  unfold testBalance
  simp only [State.setCm_cm, hl, if_true]
  refine if_neg ?_
  rw [setLatch_loss_gainSus]
  exact Nat.not_le.2 hg

theorem testBalance_of_gain (hl : (s.cm.suspect f).lossSus < f.m)
    (hg : f.m ≤ (s.cm.suspect f).gainSus) : testBalance f s =
      setLatch .gain .balance (s.cm.suspect f).sum (s.setCm (s.cm.suspect f)) := by
  unfold testBalance
  simp only [State.setCm_cm, Nat.not_le.2 hl, if_false]
  exact if_pos hg

end

section
variable {f : Force} {c : Cm}

theorem suspect_of_calm (hl : -(f.lossThr : Int) < c.sum) (hg : c.sum < f.gainThr) :
    c.suspect f = { c with lossSus := 0, gainSus := 0, cond := .normal } :=
  (if_neg (Int.not_le.2 hl)).trans (if_neg (Int.not_le.2 hg))

theorem suspect_of_loss (h : c.sum ≤ -(f.lossThr : Int)) : c.suspect f =
    { c with lossSus := min 10 (c.lossSus + 1), gainSus := 0, cond := .lossSuspect } := if_pos h

theorem suspect_of_gain (hl : 0 < f.lossThr) (h : (f.gainThr : Int) ≤ c.sum) : c.suspect f =
    { c with lossSus := 0, gainSus := min 10 (c.gainSus + 1), cond := .gainSuspect } :=
  (if_neg (by omega)).trans (if_pos h)

end

/-! ## The latches tested for clearing (R27) -/

section
variable {f : Force} {s : State}

/-- The LOSS latch after a window: kept with its count, or cleared. -/
def State.lossTested (f : Force) (n : Nat) (s : State) : State :=
  if s.cm.lossLatch = none then s
  else if n < f.m then s.setCm { s.cm with lossClr := n }
  else hsMonitor ((s.setCm { s.cm with lossLatch := none, lossSus := 0, lossClr := 0 }).raise
    (.latchCleared .loss .automatic))

/-- The GAIN latch after a window. -/
def State.gainTested (f : Force) (n : Nat) (s : State) : State :=
  if s.cm.gainLatch = none then s
  else if n < f.m then s.setCm { s.cm with gainClr := n }
  else hsGainCleared ((s.setCm { s.cm with gainLatch := none, gainSus := 0, gainClr := 0 }).raise
    (.latchCleared .gain .automatic))

/-- The LOSS latch's test leaves what the GAIN latch's reads. -/
theorem lossTested_cm {n : Nat} : (s.lossTested f n).cm.sum = s.cm.sum
    ∧ (s.lossTested f n).cm.gainClr = s.cm.gainClr := by
  unfold State.lossTested
  split
  · exact ⟨rfl, rfl⟩
  · split
    · exact ⟨rfl, rfl⟩
    · rw [hsMonitor_cm]; exact ⟨rfl, rfl⟩

theorem testClearing_eq (f : Force) (s : State) : testClearing f s =
    (s.lossTested f (clearCount s.cm.sum f.lossThr s.cm.lossClr)).gainTested f
      (clearCount s.cm.sum f.gainThr s.cm.gainClr) := by
  have loss (n : Nat) : (if s.cm.lossLatch.isSome then
        if f.m ≤ n then clearLatch .loss .automatic (s.setCm { s.cm with lossClr := n })
        else s.setCm { s.cm with lossClr := n }
      else s) = s.lossTested f n := by
    unfold State.lossTested
    by_cases h : s.cm.lossLatch = none
    · rw [if_neg (by simp [h]), if_pos h]
    · rw [if_pos (Option.isSome_iff_ne_none.2 h), if_neg h]
      by_cases hn : n < f.m
      · rw [if_neg (Nat.not_le.2 hn), if_pos hn]
      · rw [if_pos (Nat.not_lt.1 hn), if_neg hn]
        exact clearLatch_loss_of_set (by exact h)
  have gain (u : State) (n : Nat) : (if u.cm.gainLatch.isSome then
        if f.m ≤ n then clearLatch .gain .automatic (u.setCm { u.cm with gainClr := n })
        else u.setCm { u.cm with gainClr := n }
      else u) = u.gainTested f n := by
    unfold State.gainTested
    by_cases h : u.cm.gainLatch = none
    · rw [if_neg (by simp [h]), if_pos h]
    · rw [if_pos (Option.isSome_iff_ne_none.2 h), if_neg h]
      by_cases hn : n < f.m
      · rw [if_neg (Nat.not_le.2 hn), if_pos hn]
      · rw [if_pos (Nat.not_lt.1 hn), if_neg hn]
        exact clearLatch_gain_of_set (by exact h)
  let u := s.lossTested f (clearCount s.cm.sum f.lossThr s.cm.lossClr)
  calc testClearing f s = u.gainTested f (clearCount u.cm.sum f.gainThr u.cm.gainClr) := by
        rw [← gain]
        simp only [u, ← loss]
        rfl
    _ = _ := by rw [lossTested_cm.1, lossTested_cm.2]

end

/-! ## The pit check (R28) -/

section
variable {f : Force} {s : State}

/-- The check is not made. -/
theorem pitCheck_of_not {ring : List RingEntry} {sum : Int}
    (h : ring.length < 2 ∨ ∃ e ∈ ring, e.pit = none) : pitCheck ring sum = none := by
  unfold pitCheck
  split
  · refine if_neg fun ha => ?_
    rcases h with h | ⟨e, he, hp⟩
    · simp at h
    · simpa [hp] using List.all_eq_true.1 ha e he
  · rfl

/-- The pit's change from the oldest entry to the newest, less what was declared, and the balance. -/
theorem pitCheck_of_made {base new : RingEntry} {rest : List RingEntry} {a b : Nat} {sum : Int}
    (hr : ∀ e ∈ rest, e.pit ≠ none) (ha : base.pit = some a) (hb : new.pit = some b) :
    pitCheck (base :: rest ++ [new]) sum = some
      ((b : Int) - a - ((rest.map RingEntry.declared).sum + new.declared), sum - base.d) := by
  have made {l : List RingEntry} (hl : l ≠ []) (hall : (base :: l).all (fun e => e.pit.isSome) = true) :
      pitCheck (base :: l) sum = some (((l.getLast?.bind RingEntry.pit).getD 0 : Int)
        - ((base.pit.getD 0 : Nat) : Int) - (l.map RingEntry.declared).sum, sum - base.d) := by
    cases l with
    | nil => contradiction
    | cons e l => exact if_pos hall
  refine (made (by simp) ?_).trans ?_
  · simpa [ha, hb, Option.isSome_iff_ne_none] using hr
  · simp [ha, hb]

theorem crossCheck_of_not (h : pitCheck s.cm.ring s.cm.sum = none) :
    crossCheck f s = s.setCm { s.cm with disagree := 0 } := by rw [crossCheck, h]

section
variable {p d : Int} (h : pitCheck s.cm.ring s.cm.sum = some (p, d))
include h

theorem crossCheck_of_agreeing (hd : (p - d).natAbs ≤ f.tol) :
    crossCheck f s = s.setCm { s.cm with disagree := 0 } := by
  rw [crossCheck, h]
  exact if_neg (by omega)

/-- A window that disagrees is counted, and told where it brings the count to M. -/
theorem crossCheck_of_disagreeing (hd : f.tol < (p - d).natAbs) : crossCheck f s =
    let n := min 10 (s.cm.disagree + 1)
    let t := s.setCm { s.cm with disagree := n }
    if s.cm.disagree < n ∧ n = f.m then t.raise (.pitDisagree p d (p - d)) else t := by
  rw [crossCheck, h]
  simp only [Bool.and_eq_true, decide_eq_true_eq, beq_iff_eq]
  exact if_pos (by omega)

end

end

/-! ## The divert (R41) -/

section
variable {a : Aha}

theorem wellReq_of_none (h : ∀ q ∈ a.standing, q.client ≠ .wellControl) : a.wellReq = none :=
  List.find?_eq_none.2 fun q hq => by simpa using h q hq

theorem wellReq_of_first {q : Req} {l m : List Req} (h : a.standing = l ++ q :: m)
    (hq : q.client = .wellControl) (hl : ∀ x ∈ l, x.client ≠ .wellControl) : a.wellReq = some q := by
  have hn : l.find? (fun r => r.client == .wellControl) = none :=
    List.find?_eq_none.2 fun x hx => by simpa using hl x hx
  simp [Aha.wellReq, h, hn, hq]

end

section
variable {u : State} {q : Req}

theorem autoDivert_of_none (h : u.aha.wellReq = none) : autoDivert u =
    if u.pAutoDivert then requestMotion (divertReq .second false true) (setDivert .requested u)
    else setDivert .noDivert u := by
  have h' : (setDivert .requested u).aha.wellReq = none := h
  simp only [autoDivert, h, h']

section
variable (h : u.aha.wellReq = some q)
include h

/-- With AUTO DIVERT off a divert of an earlier setting still stands. -/
theorem autoDivert_of_off (hp : u.pAutoDivert = false) :
    autoDivert u = if q.byDivert then u else setDivert .noDivert u := by
  simp [autoDivert, h, hp]

/-- A close that stands is taken for the divert. -/
theorem autoDivert_of_close (hp : u.pAutoDivert = true) (hd : q.dir = .second) : autoDivert u =
    (setDivert .requested u).setAha
      (u.aha.modReq .wellControl (fun x => { x with byDivert := true })) := by
  have h' : (setDivert .requested u).aha.wellReq = some q := h
  simp only [autoDivert, hp, h', hd, if_true]
  rfl

/-- An open is withdrawn for the divert's close. -/
theorem autoDivert_of_open (hp : u.pAutoDivert = true) (hd : q.dir = .first) :
    let v := withdraw .wellControl (setDivert .requested u)
    autoDivert u = requestMotion (divertReq .second false true)
      (if q.byMessage then v.raise (.diverterDone .first .withdrawn) else v) := by
  have h' : (setDivert .requested u).aha.wellReq = some q := h
  simp only [autoDivert, hp, h', hd, if_true]

end

/-! How the divert's motion ends. -/

theorem wellDone_reports : (wellDone q u).reports = u.reports := by
  unfold wellDone; split <;> split <;> rfl

theorem wellFailed_eq : wellFailed q u =
    let t := if q.byMessage then u.raise (.diverterDone q.dir .timeout) else u
    if q.byDivert then
      match u.cm.gainLatch with
      | none => setDivert .failed t
      | some l => (setDivert .failed t).raise (.gain l.src l.figure (some .failed))
    else t := by
  have hg : (setDivert .failed (if q.byMessage then u.raise (.diverterDone q.dir .timeout)
      else u)).cm.gainLatch = u.cm.gainLatch := by cases q.byMessage <;> rfl
  simp only [wellFailed, hg]
  cases u.cm.gainLatch <;> rfl

theorem wellFailed_reports : (wellFailed q u).reports = u.reports := by
  rw [wellFailed_eq]
  cases q.byMessage <;> cases q.byDivert <;> cases u.cm.gainLatch <;> rfl

/-- A report that is the only one handed on is taken, where its taking hands on nothing. -/
theorem settle_report {r : Report} (hr : u.reports = []) (h : (takeReport r u).reports = []) :
    settle (u.report r) = takeReport r u := by
  have e : (u.report r).setReports [] = u := by rw [← hr]; rfl
  rw [settle_of_one (r := r) (by simp [hr]) (by rw [e, h]), e]

end

/-- Settles O54: the test of S by its counts, the latches that are set, the pit check and the divert. -/
theorem suspectWindowsSetTheLatches : Obligations.SuspectWindowsSetTheLatches := by
  refine ⟨fun f s hl hg hm => ?_, fun f s => testClearing_eq f s, fun f s =>
    ⟨fun h => crossCheck_of_not (pitCheck_of_not h), fun base rest new a b hring hr ha hb => ?_⟩⟩
  · intro n k lossy gainy
    have loss : s.cm.sum ≤ -(f.lossThr : Int) → s.cm.suspect f = lossy.cm := suspect_of_loss
    have gain : (f.gainThr : Int) ≤ s.cm.sum → s.cm.suspect f = gainy.cm := suspect_of_gain hl
    refine ⟨fun h1 h2 => ?_, fun h => ⟨fun hn => ?_, fun hn hc => ?_⟩,
      fun h => ⟨fun hn => ?_, fun hn hc => ?_⟩⟩
    · have e := suspect_of_calm h1 h2
      exact (testBalance_of_short (e ▸ hm) (e ▸ hm)).trans (by rw [e])
    · by_cases hk : f.m ≤ n
      · rw [testBalance_of_loss (loss h ▸ hk) (loss h ▸ hm), loss h]
        exact setLatch_loss_of_set (hn.resolve_left (Nat.not_lt.2 hk))
      · rw [testBalance_of_short (loss h ▸ Nat.not_le.1 hk) (loss h ▸ hm), loss h]
        rfl
    · rw [testBalance_of_loss (loss h ▸ hn) (loss h ▸ hm), loss h]
      exact setLatch_loss_of_clear hc
    · by_cases hk : f.m ≤ k
      · rw [testBalance_of_gain (gain h ▸ hm) (gain h ▸ hk), gain h]
        exact setLatch_gain_of_set (hn.resolve_left (Nat.not_lt.2 hk))
      · rw [testBalance_of_short (gain h ▸ hm) (gain h ▸ Nat.not_le.1 hk), gain h]
        rfl
    · rw [testBalance_of_gain (gain h ▸ hm) (gain h ▸ hn), gain h]
      exact setLatch_gain_of_clear hc
  · intro change balance n
    have hc : pitCheck s.cm.ring s.cm.sum = some (change, balance) := by
      rw [hring]
      exact pitCheck_of_made hr ha hb
    refine ⟨crossCheck_of_agreeing hc, fun hd => ?_, fun u => ?_, fun u q hu hq => ?_⟩
    · intro t
      have e := crossCheck_of_disagreeing hc hd
      exact ⟨fun hn hl => e.trans (if_pos ⟨hl, hn⟩), fun hn => e.trans (if_neg (by omega))⟩
    · intro status close asked
      refine ⟨fun h => ?_, fun a q b h hq hn => ?_⟩
      · have e := autoDivert_of_none (wellReq_of_none h)
        exact ⟨fun hp => e.trans (if_pos hp), fun hp => e.trans (if_neg (by simp [hp]))⟩
      · have hw := wellReq_of_first h hq hn
        exact ⟨autoDivert_of_close hw, autoDivert_of_open hw, autoDivert_of_off hw⟩
    · intro status told
      refine ⟨fun how => ?_, fun cause m => ?_⟩
      · have e : takeReport (.complete q how) u = wellDone q u := by simp only [takeReport, hq]
        rw [settle_report hu (by rw [e, wellDone_reports, hu]), e]
        rfl
      · have e : takeReport (.failed q cause m) u = wellFailed q u := by simp only [takeReport, hq]
        rw [settle_report hu (by rw [e, wellFailed_reports, hu]), e, wellFailed_eq]
        rfl

end Sys2Proof.Machine
end

section
/-! PROOFS. Mud circulation: a window closes (R21, R22, R24, R30, R113, R119). -/

namespace Sys2Proof.Machine

@[simp] theorem elapse_cm_remainder (dt : Nat) (s : State) (p : Pump) :
    ((s.elapse dt).cm.pump p).remainder = (s.cm.pump p).remainder := by
  unfold State.elapse; split <;> cases p <;> rfl

/-! ## The record of a window -/

/-- A delta held within its bound, with its mark (R22). -/
theorem clampDelta_eq (x : Int) : clampDelta x = (max (-500000) (min 500000 x),
    if x < -500000 then .bottom else if 500000 < x then .top else .unclamped) := by
  unfold clampDelta Config.deltaTop
  split
  · exact Prod.ext (by dsimp only; omega) rfl
  · split
    · exact Prod.ext (by dsimp only; omega) rfl
    · exact Prod.ext (by dsimp only; omega) rfl

theorem pitVolume_eq (p : Analogue) (area : Nat) : pitVolume p area =
    if p.st = .good then p.value.map (fun v => v * area / 10) else none := by
  unfold pitVolume
  by_cases h : p.st = .good <;> simp [Analogue.isFaulted, h]

/-- The amounts of a window, by the latches (R22). -/
theorem lossAmount_eq (c : Cm) (d : Int) :
    c.lossAmount d = if c.lossLatch ≠ none ∧ d < 0 then d.natAbs else 0 := by
  simp [Cm.lossAmount, Option.isSome_iff_ne_none]

theorem gainAmount_eq (c : Cm) (d : Int) :
    c.gainAmount d = if c.gainLatch ≠ none ∧ 0 < d then d.natAbs else 0 := by
  simp [Cm.gainAmount, Option.isSome_iff_ne_none]

/-! ## What the steps of a close leave of the cumulative volume -/

section
variable (s : State) (f : Force)

@[simp] theorem autoDivert_cum : (autoDivert s).cm.cum = s.cm.cum := by
  have told {c : Prop} [Decidable c] {t : State} {d : Detail} :
      (if c then t.raise d else t).cm = t.cm := by split <;> rfl
  fun_cases autoDivert s <;> simp +zetaDelta [setDivert, told]

@[simp] theorem setLatch_cum (l : LatchName) (src : LatchSrc) (figure : Int) :
    (setLatch l src figure s).cm.cum = s.cm.cum := by
  fun_cases setLatch l src figure s <;> simp

@[simp] theorem testBalance_cum : (testBalance f s).cm.cum = s.cm.cum := by
  have hs : (s.cm.suspect f).cum = s.cm.cum := by fun_cases Cm.suspect f s.cm <;> rfl
  unfold testBalance
  simp only []
  split <;> split <;> simp [hs]

@[simp] theorem testClearing_cum : (testClearing f s).cm.cum = s.cm.cum := by
  have loss {n : Nat} {u : State} : (u.lossTested f n).cm.cum = u.cm.cum := by
    fun_cases State.lossTested f n u <;> simp
  have gain {n : Nat} {u : State} : (u.gainTested f n).cm.cum = u.cm.cum := by
    fun_cases State.gainTested f n u <;> simp
  rw [testClearing_eq, gain, loss]

@[simp] theorem crossCheck_cum : (crossCheck f s).cm.cum = s.cm.cum := by
  fun_cases crossCheck f s <;> simp +zetaDelta

end

/-! ## The state's own steps (R30) -/

section
variable {f : Force} {r : WinRec} {s : State}

theorem stateSteps_of_other (h1 : s.cm.mon ≠ .settling) (h2 : s.cm.mon ≠ .watching) :
    stateSteps f r s = s := by
  unfold stateSteps
  split
  · contradiction
  · contradiction
  · rfl

theorem stateSteps_of_watching (h : s.cm.mon = .watching) : stateSteps f r s =
    crossCheck f (testClearing f (testBalance f (s.setCm (s.cm.append f.n r)))) := by
  simp only [stateSteps, h]

theorem stateSteps_of_settling (h : s.cm.mon = .settling) (hs : 1 < s.cm.settle) :
    stateSteps f r s = s.setCm { s.cm with settle := s.cm.settle - 1 } := by
  simp only [stateSteps, h]
  exact if_neg (show ¬s.cm.settle - 1 = 0 by omega)

/-- The last window of SETTLING (R30). -/
theorem stateSteps_of_settled (h : s.cm.mon = .settling) (hs : s.cm.settle ≤ 1) :
    stateSteps f r s = hsMonitor (s.setCm
      { s.cm with
        settle := 0, mon := .watching, ring := [], sum := 0, lossSus := 0, gainSus := 0
        lossClr := 0, gainClr := 0, disagree := 0, cond := .normal }) := by
  have h0 : s.cm.settle - 1 = 0 := by omega
  simp only [stateSteps, h, h0]
  rfl

/-- No step of a state changes the cumulative volume. -/
theorem stateSteps_cum : (stateSteps f r s).cm.cum = s.cm.cum := by
  fun_cases stateSteps f r s <;> simp +zetaDelta [Cm.append, Cm.emptied]

end

section
variable {c : Cm} {w : Window}

theorem windowDue_of_none (h : c.win = none) : c.windowDue = false := by rw [Cm.windowDue, h]

theorem windowDue_iff (h : c.win = some w) : c.windowDue = true ↔ w.left = 0 := by
  rw [Cm.windowDue, h]; exact beq_iff_eq

end

/-- A window that closes, by its record and what the steps of the state make of it. -/
theorem closeWindow_of_steps {s t u : State} {w : Window} {r : WinRec} {d : Int} {cum : Nat}
    (hw : s.cm.win = some w) (hr : closeRecord w s.cm s.sfe.pit = r) (hd : r.d = d)
    (hc : (s.cm.closed w r).cum = cum) (ht : s.setCm (s.cm.closed w r) = t)
    (hu : stateSteps w.force r t = u) : closeWindow s =
      nextWindow w.force.n (dibWindow cum
        (if u.cm.lossLatch ≠ none ∧ d < 0 then d.natAbs else 0)
        (if u.cm.gainLatch ≠ none ∧ 0 < d then d.natAbs else 0) u) := by
  have hcu : u.cm.cum = cum := by rw [← hu, stateSteps_cum, ← ht]; exact hc
  rw [← hcu, ← hd, ← lossAmount_eq, ← gainAmount_eq, closeWindow, hw]
  simp only [hr, ht, hu]

/-! ## The window at the builder (R113, R119) -/

/-- An entry falls due, at a cumulative volume. -/
abbrev Entry.fallsDue (cum : Nat) (e : Entry) : Prop := e.st = .awaiting ∧ e.lag ≤ cum

/-- SAMPLE DUE raised for entries in their order (R119). -/
def State.dueTold (clock : Nat) (l : List Entry) (s : State) : State :=
  l.foldl (fun v e => v.raise (.sampleDue e.iv.number e.bottom clock)) s

theorem dueTold_setDib (clock : Nat) (l : List Entry) (d : Dib) (s : State) :
    (s.setDib d).dueTold clock l = (s.dueTold clock l).setDib d := by
  induction l generalizing s with
  | nil => rfl
  | cons e l ih => exact ih (s.raise _)

/-- The entries that fall due, and what is told of them. -/
theorem fallDue_eq (cum : Nat) (l : List Entry) (s : State) : fallDue s cum l =
    (s.dueTold s.tps.clock (l.filter (fun e => decide (e.fallsDue cum))),
      l.map (fun e => if e.fallsDue cum then
        { e with st := .sampleDue s.tps.clock (s.tps.clock + s.pGrace) } else e)) := by
  induction l generalizing s with
  | nil => rfl
  | cons e l ih =>
    unfold fallDue
    by_cases h : e.fallsDue cum
    · rw [if_pos h, List.filter_cons_of_pos (by simpa using h), List.map_cons, if_pos h]
      simp only [ih]
      rfl
    · rw [if_neg h, List.filter_cons_of_neg (by simpa using h), List.map_cons, if_neg h, ih]

theorem dibWindow_eq (cum loss gain : Nat) (u : State) : dibWindow cum loss gain u =
    testHead ((u.dueTold u.tps.clock (u.dib.queue.filter (fun e => decide (e.fallsDue cum)))).setDib
      { u.dib with
        cumLast := cum
        openIv := u.dib.openIv.map (fun v => { v with
          loss := min (v.loss + loss) 4294967295, gain := min (v.gain + gain) 4294967295 })
        queue := u.dib.queue.map (fun e => if e.fallsDue cum then
          { e with st := .sampleDue u.tps.clock (u.tps.clock + u.pGrace) } else e) }) := by
  simp only [dibWindow, fallDue_eq, dueTold_setDib]
  rfl

/-- Settles O53: a close by the monitor's state, the next window, and the builder's part. -/
theorem windowsCloseIntoTheBalance : Obligations.WindowsCloseIntoTheBalance := by
  refine ⟨fun dt s hs => ?_, fun cum loss gain u => dibWindow_eq cum loss gain u⟩
  intro h
  rw [show s.cm.win = h.cm.win by simp [h], show s.cm.mon = h.cm.mon by simp [h],
    show s.cm.settle = h.cm.settle by simp [h], show s.cm.ring = h.cm.ring by simp [h],
    show s.cm.cum = h.cm.cum by simp [h], show s.sfe.pit = h.sfe.pit by simp [h],
    show s.cm.pump1.remainder = h.cm.pump1.remainder from (elapse_cm_remainder dt s .one).symm,
    show s.cm.pump2.remainder = h.cm.pump2.remainder from (elapse_cm_remainder dt s .two).symm]
  intro c
  refine ⟨fun hw => ?_, fun w hw => ?_⟩
  · exact next_of_early hs (if_neg (Bool.eq_false_iff.1 (windowDue_of_none hw)))
  · intro raw1 raw2 x d clamp pit r cum t closes appended
    have hr : closeRecord w h.cm h.sfe.pit = r := by
      simp only [closeRecord, clampDelta_eq, pitVolume_eq]
      rfl
    have ht : h.setCm (h.cm.closed w r) = t := rfl
    have closed (h0 : w.left = 0) {u : State} (hu : stateSteps w.force r t = u) : closes u := by
      have e : closeWindow h = _ := closeWindow_of_steps (d := d) (cum := cum) hw hr rfl rfl ht hu
      exact next_of_finish hs ((if_pos ((windowDue_iff hw).2 h0)).trans e)
    refine ⟨fun h0 => next_of_early hs (if_neg ((windowDue_iff hw).not.2 h0)),
      fun h0 => ⟨fun h1 h2 => closed h0 (stateSteps_of_other h1 h2),
        fun hm hn => closed h0 (stateSteps_of_settling hm hn),
        fun hm hn => closed h0 (stateSteps_of_settled hm hn),
        fun hm => closed h0 (stateSteps_of_watching hm)⟩, fun u => ?_⟩
    intro win
    exact ⟨fun hn => by rw [nextWindow, if_pos hn]; rfl, fun hn => by rw [nextWindow, if_neg hn]; rfl⟩

end Sys2Proof.Machine
end

section
/-! PROOFS. Mud circulation: timers that run out, and the head of the sample queue. -/

namespace Sys2Proof.Machine

/-- A capture that took samples gives their mean as the reference (R36). -/
theorem endCapture_of_sampled {s : State} (h : 0 < s.cm.capCount) : endCapture s =
    hsMonitor (s.setCm
      { s.cm with
        mon := .holeWatch, capTimer := none, capSum := 0, capCount := 0, entryVol := 0
        ref := some ((s.cm.capSum / s.cm.capCount : Nat) : Int), hiStep := 0, loStep := 0
        span := [], secPulses := 0 }) := by
  rw [endCapture, captureRef, if_neg (Nat.ne_of_gt h)]

/-! ## The holder's timeout (R69, R73) -/

section
variable {s : State} {r : Req} (h : s.aha.holder = some r)
include h

theorem ahaTimeout_of_early (hl : r.left ≠ some 0) : ahaTimeout s = s := by
  rw [ahaTimeout, h]
  exact if_neg (over_iff.not.2 hl)

/-- A jog that is driven ends at its length (R73). -/
theorem ahaTimeout_of_jog (hl : r.left = some 0) (hj : (∃ sw, r.target = .jog sw) ∧ r.lockWait = none) :
    ahaTimeout s = endHolder (.complete r .jogEnd) s := by
  obtain ⟨⟨sw, ht⟩, hw⟩ := hj
  rw [ahaTimeout, h]
  refine (if_pos (over_iff.2 hl)).trans ?_
  simp only [ht, hw]

/-- Any other motion fails, a jog that still waits for INDEX LOCKED among them (R69; log 13). -/
theorem ahaTimeout_of_motion (hl : r.left = some 0)
    (hj : ¬((∃ sw, r.target = .jog sw) ∧ r.lockWait = none)) :
    ahaTimeout s = endHolder (.failed r .timeout 0) s := by
  rw [ahaTimeout, h]
  refine (if_pos (over_iff.2 hl)).trans ?_
  split
  · next sw ht hw => exact absurd ⟨⟨sw, ht⟩, hw⟩ hj
  · rfl

/-- With nothing else standing the end of a motion other than an index motion leaves the arbiter empty
(R67, R68). -/
theorem endHolder_of_alone {rep : Report} (hf : r.fn ≠ .index) (hs : s.aha.stack = [])
    (hw : s.aha.waiting = []) :
    endHolder rep s = (s.setAha ⟨none, [], [], none⟩).report rep := by
  have e : stopHolder s = s.setAha ⟨none, [], [], none⟩ := by
    simp only [stopHolder, h, hf, if_false, hs, hw]
  rw [endHolder, e]
  rfl

end

/-- A HANDLING motion that fails by its time takes the operation that runs to FAULTED (R93). -/
theorem takeReport_timeout {s : State} {r : Req} {o : OpRec} {m : SwitchSet} (hc : r.client = .handling)
    (ho : s.hs.op = some o) (hq : s.hs.seq = .running) : takeReport (.failed r .timeout m) s =
      (s.setHs { s.hs with
        seq := .faulted, cause := some (.fault r.fn .timeout), stall := none }).raise
          (.opFault o.op o.stage r.fn .timeout) := by
  simp only [takeReport, hc, hsMotionFailed, hq, faultOp, ho]
  rfl

/-! ## The head of the sample queue (R122) -/

section
variable {u v : State} {e : Entry} {rest : List Entry}

theorem ready_iff : e.ready = true ↔
    e.flush = true ∨ (e.st ≠ .awaiting ∧ (e.iv.final = true ∨ e.graceOver = true)) := by
  simp [Entry.ready]

theorem testHead_of_empty (h : u.dib.queue = []) : testHead u = u := by
  rw [testHead, h]; rfl

section
variable (h : u.dib.queue = e :: rest)
include h

theorem testHead_of_not_ready (hr : ¬e.ready = true) : testHead u = u := by
  rw [testHead, h]
  show testHeads (rest.length + 1) u = u
  rw [testHeads, h]
  exact if_neg hr

/-- A head that is ready is handed over (R122). -/
theorem testHead_of_ready (hr : e.ready = true) : testHead u =
    if (commitHead u).2 then testHeads rest.length (commitHead u).1 else (commitHead u).1 := by
  rw [testHead, h]
  show testHeads (rest.length + 1) u = _
  rw [testHeads, h]
  exact if_pos hr

section
variable (hr : e.ready = true)
include hr

/-- It stays where the writer does not take its record. -/
theorem testHead_of_kept
    (g : handOver .interval e.iv.job (e.body u.tps.clock) false (some e.iv.number) u = (v, none)) :
    testHead u = v := by
  have hc : commitHead u = (v, false) := by
    rw [commitHead, h]
    simp only [hr, if_true, State.now, g]
  rw [testHead_of_ready h hr, hc]
  rfl

/-- It leaves the queue where the writer takes it, and the next head is tested. -/
theorem testHead_of_taken {n : Nat}
    (g : handOver .interval e.iv.job (e.body u.tps.clock) false (some e.iv.number) u = (v, some n)) :
    testHead u = testHead (v.setDib { u.dib with queue := rest }) := by
  have hd : v.dib = u.dib := by
    have := handOver_dib u .interval e.iv.job (e.body u.tps.clock) false (some e.iv.number)
    rwa [g] at this
  have hc : commitHead u = (v.setDib { u.dib with queue := rest }, true) := by
    rw [commitHead, h]
    simp only [hr, if_true, State.now, g, hd]
  rw [testHead_of_ready h hr, hc]
  rfl

end

end

end

/-- The first entry whose grace expiry is still to be taken becomes ready (R119). -/
theorem takeGrace_of_first {pre post : List Entry} {e : Entry} (hp : ∀ x ∈ pre, x.graceDue = false)
    (he : e.graceDue = true) : takeGrace (pre ++ e :: post) =
      pre ++ { e with graceDue := false, graceOver := true } :: post := by
  induction pre with
  | nil => exact if_pos he
  | cons x pre ih =>
    have hx : ¬x.graceDue = true := by simp [hp x (List.mem_cons_self ..)]
    exact (if_neg hx).trans (congrArg _ (ih fun y hy => hp y (List.mem_cons_of_mem _ hy)))

/-- Settles O55: each row before its time and at it, and the head of the sample queue. -/
theorem timersActWhenTheyRunOut : Obligations.TimersActWhenTheyRunOut := by
  refine ⟨fun dt s hs => ?_, fun u => ⟨testHead_of_empty, fun e rest h => ?_⟩⟩
  · intro h
    rw [show s.cm.mon = h.cm.mon by simp [h], show s.cm.fcVol = h.cm.fcVol by simp [h],
      show s.cm.capSum = h.cm.capSum by simp [h], show s.cm.capCount = h.cm.capCount by simp [h],
      show s.tps = h.tps by simp [h], show s.aha.stack = h.aha.stack by simp [h],
      show s.aha.waiting = h.aha.waiting by simp [h], show s.hs.op = h.hs.op by simp [h],
      show s.hs.seq = h.hs.seq by simp [h], show s.dib = h.dib by simp [h]]
    have hrep : h.reports = s.reports := State.elapse_reports dt s
    refine ⟨fun hn => next_of_early hs (if_neg fun hc => ?_),
      fun hm ht => next_of_finish hs (if_pos ⟨hm, over_iff.2 ht⟩),
      fun hn => next_of_early hs (if_neg fun hc => ?_), fun hm ht hk => ?_, fun r hr => ?_,
      fun hn => next_of_early hs (if_neg (over_iff.not.2 hn)), fun o ht ho => ?_,
      fun pre e post hq hp he => ?_⟩
    · exact hn.elim (· hc.1) (· (over_iff.1 hc.2))
    · exact hn.elim (· hc.1) (· (over_iff.1 hc.2))
    · exact next_of_finish hs ((if_pos ⟨hm, over_iff.2 ht⟩).trans (endCapture_of_sampled hk))
    · intro c jog
      refine ⟨fun hl => next_of_early hs (ahaTimeout_of_early hr hl),
        fun hl hj => next_of_finish hs (ahaTimeout_of_jog hr hl hj),
        fun hl hj => next_of_finish hs (ahaTimeout_of_motion hr hl hj),
        fun o hl hc ht hf h1 h2 ho hq => ?_⟩
      have e := ahaTimeout_of_motion hr hl fun hj => hj.1.elim ht
      rw [endHolder_of_alone hr hf h1 h2] at e
      have hrep' : (h.setAha ⟨none, [], [], none⟩).reports = [] := hrep.trans hs.2
      have ht := takeReport_timeout (s := h.setAha ⟨none, [], [], none⟩) (m := 0) hc ho hq
      refine (next_of_finish hs e).trans (congrArg (fun t => Host.Outcome.next (lcService t)) ?_)
      rw [settle_report hrep' (by rw [ht]; exact hrep'), ht]
      rfl
    · refine next_of_quiet hs ((if_pos (over_iff.2 ht)).trans ?_) hrep
      rw [stallOver, ho]
    · have hg : graceOver h = testHead (h.setDib { h.dib with
          queue := pre ++ { e with graceDue := false, graceOver := true } :: post }) := by
        rw [graceOver, hq, takeGrace_of_first hp he]
      exact next_of_quiet hs hg ((reports_of_offBuilder (testHeads_offBuilder _ _)).trans hrep)
  · intro ready given
    exact ⟨fun hr => testHead_of_not_ready h (ready_iff.not.2 hr),
      fun v hr => testHead_of_kept h (ready_iff.2 hr),
      fun v n hr => testHead_of_taken h (ready_iff.2 hr)⟩

end Sys2Proof.Machine
end

section
/-! PROOFS. Mud circulation: power returns, cold or warm. -/

namespace Sys2Proof.Machine

/-! ## The writer's warm recovery (R142) -/

section
variable {s : State}

/-- Nothing but the store and the notices changes after a failed verify (R137, R138). -/
theorem afterFailure_eq (s : State) :
    afterFailure s = { s with rws := (afterFailure s).rws, lc := (afterFailure s).lc } := by
  fun_cases afterFailure s <;> rfl

/-- And the store alone where it was not the third. -/
theorem afterFailure_of_early (h : ∀ v, s.rws.write = some v → v.attempts < 2) :
    afterFailure s = s.setRws (afterFailure s).rws := by
  have third {v : Write} (hv : s.rws.write = some v) (hn : ¬v.attempts + 1 < Config.attemptTop) :
      False :=
    hn (Nat.succ_lt_succ (h v hv))
  fun_cases afterFailure s with
  | case1 => rfl
  | case2 _ _ _ hv hn => exact (third hv hn).elim
  | case3 _ _ _ hv hn => exact (third hv hn).elim
  | case4 => rfl

theorem recoverWrite_eq (s : State) :
    recoverWrite s = { s with rws := (recoverWrite s).rws, lc := (recoverWrite s).lc } := by
  fun_cases recoverWrite s
  case case5 => exact afterFailure_eq _
  all_goals rfl

theorem recoverWrite_of_early (h : ∀ v, s.rws.write = some v →
    v.mark = some (.rewrite .failure) → v.attempts < 2) :
    recoverWrite s = s.setRws (recoverWrite s).rws := by
  fun_cases recoverWrite s
  case case5 w hw hm =>
    exact afterFailure_of_early fun v hv => h v hv (Option.some.inj (hw.symm.trans hv) ▸ hm)
  all_goals rfl

theorem recoverStart_eq (s : State) :
    recoverStart s = { s with rws := (recoverStart s).rws, lc := (recoverStart s).lc } := by
  unfold recoverStart
  simp only []
  split
  · rfl
  · exact recoverWrite_eq _

theorem recoverStart_of_early (h : ∀ v, s.rws.write = some v →
    v.mark = some (.rewrite .failure) → v.attempts < 2) :
    recoverStart s = s.setRws (recoverStart s).rws := by
  unfold recoverStart
  simp only []
  split
  · rfl
  · exact recoverWrite_of_early h

theorem recovered_iff {r : Rws} :
    r.recovered = true ↔ r.recovering = some .finishing ∧ r.wst = .idle ∧ r.write = none := by
  simp [Rws.recovered, and_assoc]

end

/-! ## What the report at a recovery's end leaves (R131, R142) -/

/-- All but the store, the sample queue, the outbox, the tickets, the notices and the held record. -/
def State.offReports (s : State) :
    Sfe × List Int × Aha × Hs × Cm × Rrc × Dib × Bu × Lc × Tps :=
  (s.sfe, s.params, s.aha, s.hs, s.cm, s.rrc, { s.dib with queue := [] },
    { s.bu with tickets := [], outbox := [] }, { s.lc with notices := [] },
    { s.tps with heldRecovery := none, storeReported := false })

section
variable (s : State)

@[simp] theorem setRws_offReports (r : Rws) : (s.setRws r).offReports = s.offReports := rfl

@[simp] theorem handOver_offReports (kind : RKind) (job : Nat) (body : List Byte) (fresh : Bool)
    (item : Option Nat) : (handOver kind job body fresh item s).1.offReports = s.offReports := by
  fun_cases handOver kind job body fresh item s <;> rfl

theorem commitHead_offReports : (commitHead s).1.offReports = s.offReports := by
  unfold commitHead
  split
  · rfl
  · simp only []
    split <;> exact handOver_offReports s _ _ _ _ _

@[simp] theorem testHeads_offReports (n : Nat) : (testHeads n s).offReports = s.offReports := by
  induction n generalizing s with
  | zero => rfl
  | succ n ih =>
    unfold testHeads
    split
    · rfl
    · split
      · simp only []
        split
        · rw [ih, commitHead_offReports]
        · exact commitHead_offReports s
      · rfl

theorem outRec_handOver_offReports (r : OutRec) : (r.handOver s).1.offReports = s.offReports := by
  cases r <;> exact handOver_offReports s _ _ _ _ _

@[simp] theorem handOutbox_offReports (n : Nat) : (handOutbox n s).offReports = s.offReports := by
  induction n generalizing s with
  | zero => rfl
  | succ n ih =>
    unfold handOutbox
    split
    · rfl
    · next r rest _ =>
      have hr := outRec_handOver_offReports s r
      simp only []
      split
      · exact hr
      · rw [ih, ← hr]
        cases r <;> rfl

@[simp] theorem tpsFreed_offReports : (tpsFreed s).offReports = s.offReports := by
  unfold tpsFreed
  split
  · rfl
  · simp only []
    split <;> exact handOver_offReports s _ _ _ _ _

@[simp] theorem freedPlace_offReports : (freedPlace s).offReports = s.offReports := by
  simp [freedPlace, testHead, buFreed]

theorem afterFailure_offReports : (afterFailure s).offReports = s.offReports := by
  fun_cases afterFailure s <;> rfl

theorem recoverWrite_offReports : (recoverWrite s).offReports = s.offReports := by
  fun_cases recoverWrite s
  case case5 => exact afterFailure_offReports _
  all_goals rfl

theorem recoverStart_offReports : (recoverStart s).offReports = s.offReports := by
  unfold recoverStart
  simp only []
  split
  · rfl
  · exact recoverWrite_offReports _

/-- The store's report does not end start-up before the inputs' has come (R195). -/
theorem storeReady_offReports (h : s.tps.inputsReported = false) :
    (storeReady s).offReports = s.offReports := by
  let t := freedPlace (s.setRws { s.rws with recovering := none, accepting := true })
  have ht : t.offReports = s.offReports := freedPlace_offReports _
  have hi : t.tps.inputsReported = false :=
    (congrArg (fun o => o.2.2.2.2.2.2.2.2.2.inputsReported) ht).trans h
  have he : tryEndStartUp (t.setTps { t.tps with storeReported := true }) =
      t.setTps { t.tps with storeReported := true } :=
    tryEndStartUp_of_not fun ho => Bool.false_ne_true (hi.symm.trans ho.2.1)
  show (State.setRws _ _).offReports = _
  rw [setRws_offReports]
  exact (congrArg State.offReports he).trans ht

end

/-! ## The start -/

/-- The state in which a warm start's recovery of the store begins. -/
def State.warmed (secs : Nat) (s : State) : State :=
  { s with
    sfe := .reset s.sfe.raw, params := s.params.set 16 0, aha := ⟨none, [], [], none⟩
    cm := { Cm.reset with
      lossLatch := s.cm.lossLatch, gainLatch := s.cm.gainLatch, cum := s.cm.cum
      divert := if s.cm.divert = .requested then .failed else s.cm.divert
      fcResult := s.cm.fcResult, fcSecond := s.cm.fcSecond, fcVolume := s.cm.fcVolume }
    rrc := { s.rrc with loader := s.rrc.loader.map (fun o => { o with phase := .waiting }) }
    dib := { s.dib with
      dstate := if s.hs.depthHold then .held else .fault, encFaulted := true, headLast := none }
    lc := { Lc.reset with
      trial := s.lc.lastRate, lastRate := s.lc.lastRate, mask := s.lc.mask
      notices := s.lc.notices.map Notice.requeue }
    tps := { s.tps with
      clock := (s.tps.clock + secs) % 2 ^ 32, phase := .startUp, inputsReported := false
      storeReported := false, startKind := .warm, startEnd := none }
    reports := [] }

section
variable {s : State} {secs : Nat}

theorem powerReturns_cold {b : Bool} (h : s.tps.valid = false ∨ b = false) :
    powerReturns secs b s = coldStart s := by
  have hc : (s.tps.valid && b) = false := by simpa [or_comm, imp_iff_not_or] using h
  unfold powerReturns
  simp only [State.setTps_tps, hc]
  rfl

theorem powerReturns_warm (h : s.tps.valid = true) : powerReturns secs true s =
    if (recoverStart (s.warmed secs)).rws.recovered then storeReady (recoverStart (s.warmed secs))
    else recoverStart (s.warmed secs) := by
  have hc : (s.tps.valid && true) = true := by simp [h]
  exact if_pos hc

/-- What the warm start leaves, whether or not the store's recovery is done at once. -/
theorem powerReturns_offReports (h : s.tps.valid = true) :
    (powerReturns secs true s).offReports = (s.warmed secs).offReports := by
  have hu := recoverStart_offReports (s.warmed secs)
  rw [powerReturns_warm h]
  split
  · exact (storeReady_offReports _ (by rw [recoverStart_eq]; rfl)).trans hu
  · exact hu

end

/-- Settles O60: each start by the state in which it begins, and what the store's recovery leaves. -/
theorem powerReturnsColdOrWarm : Obligations.PowerReturnsColdOrWarm := by
  intro dt secs b s c
  have returns (hp : s.tps.phase = .off) : c = .next (powerReturns secs b s) :=
    congrArg _ (if_pos hp)
  refine ⟨fun hp => congrArg _ (if_neg hp),
    fun hp hv => (returns hp).trans (congrArg _ (powerReturns_cold hv)), fun hp hv hb => ?_,
    fun hp hv hb => ?_⟩
  · subst hb
    intro w u ended third
    have hc := (returns hp).trans (congrArg _ (powerReturns_warm hv))
    refine ⟨recoverStart_eq w, fun hn => recoverStart_of_early fun v hv hm => ?_, fun hn => ?_,
      fun hn => ?_⟩
    · exact Nat.not_le.1 fun ha => hn ⟨v, hv, hm, ha⟩
    · exact hc.trans (congrArg _ (if_neg (recovered_iff.not.2 hn)))
    · have hr := recovered_iff.2 hn
      have hw : writerGoesOn u = storeReady u := if_pos hr
      exact hc.trans (congrArg _ ((if_pos hr).trans hw.symm))
  · subst hb
    refine ⟨_, returns hp, ?_⟩
    have ho := powerReturns_offReports (secs := secs) hv
    simp only [State.offReports, Prod.mk.injEq] at ho
    obtain ⟨hsfe, hpar, haha, hhs, hcm, hrrc, hdib, hbu, hlc, htps⟩ := ho
    exact ⟨hsfe, hpar, haha, hhs, hcm, hrrc, (congrArg Dib.dstate hdib :), (congrArg Dib.depth hdib :),
      (congrArg Dib.hwm hdib :), (congrArg Dib.offset hdib :), (congrArg Dib.openIv hdib :),
      (congrArg Bu.jobSt hbu :), (congrArg Bu.job hbu :), (congrArg Bu.openSecs hbu :),
      (congrArg Bu.totals hbu :), (congrArg Bu.since hbu :), (congrArg Bu.tariffs hbu :),
      (congrArg Bu.breakdown hbu :), (congrArg Bu.lossCat hbu :), (congrArg Lc.locked hlc :),
      (congrArg Lc.trial hlc :), (congrArg Lc.mask hlc :), (congrArg Tps.phase htps :),
      (congrArg Tps.startKind htps :), (congrArg Tps.startEnd htps :), (congrArg Tps.clock htps :),
      (congrArg Tps.lossSec htps :)⟩

end Sys2Proof.Machine
end

section
/-! PROOFS. Rods: the registry's messages, and the routes of the carousel. -/

namespace Sys2Proof.Machine

/-! ## Requests whose dealing keeps the link -/

section
variable {s t : State} {dt : Nat} {tag : Byte} {r : Request} {rep : Reply} (h : s.ready)
  (e : own r (s.heard dt) = (t, rep)) (k : Keeps (s.heard dt) t)
include h e k

/-- A request dealt with by the blocks' operations, whatever they hand on (R180; log 7). -/
theorem requestRow_replying_keeps : requestRow dt tag r s = t.replying tag r rep :=
  requestRow_replying_own h e (k.clearing.trans (heard_free h.2.2).2.2.2.2.2)

/-- A request dealt with by the blocks' operations that hand on nothing (R180). -/
theorem requestRow_answering_keeps (hr : t.reports = []) : requestRow dt tag r s = t.answering tag r rep :=
  requestRow_of_own h e hr (k.free (heard_free h.2.2))

end

/-! ## The registry (R44, R45) -/

/-- A serial's characters are A to Z and 0 to 9, by their codes (R44, R201). -/
theorem serialValid_iff {x : Serial} :
    serialValid x = true ↔ ∀ b ∈ serialBytes x, 1 ≤ b.toNat ∧ b.toNat ≤ 36 := by
  simp [serialValid, serialCodes]

section
variable {r : Rrc} {i : Nat} {rod : Rod}

theorem Rrc.locOf_of_rod (h : r.rod i = some rod) : r.locOf i = some rod.loc := by
  rw [Rrc.locOf, h]; rfl

/-- A rod's change of place, with its entry written out (R44). -/
theorem Rrc.moveRod_of_rod (h : r.rod i = some rod) (l : Loc) :
    r.moveRod i l = { r with registry := r.registry.set i (some { rod with loc := l }) } := by
  have hi : r.registry[i]? = some (some rod) := by
    simpa [Rrc.rod, List.getD_eq_getElem?_getD, Option.getD_eq_iff] using h
  rw [Rrc.moveRod, Rrc.modRod, List.modify_eq_set_getElem?, hi]
  rfl

/-- An entry is found by its serial alone (R45). -/
theorem Rrc.find_eq (r : Rrc) (x : Serial) :
    r.find x = (r.registry.map (Option.map Rod.serial)).findIdx? (· == some x) := by
  rw [List.findIdx?_map]
  refine congrArg (fun p => List.findIdx? p r.registry) (funext fun o => ?_)
  cases o <;> rfl

/-- A rod is found where it was after it has moved (R46). -/
theorem Rrc.find_moveRod (l : Loc) (x : Serial) : (r.moveRod i l).find x = r.find x := by
  rw [Rrc.find_eq, Rrc.find_eq]
  refine congrArg _ (List.ext_getElem? fun j => ?_)
  simp only [Rrc.moveRod, Rrc.modRod, List.getElem?_map, List.getElem?_modify]
  cases r.registry[j]? with
  | none => rfl
  | some o => by_cases hj : i = j <;> cases o <;> simp [hj]

theorem Rrc.newEntry_of_free (h : r.registry.findIdx? Option.isNone = some i) :
    r.newEntry = some (i, r.retired) := by rw [Rrc.newEntry, h]

theorem Rrc.findIdx?_isNone_of_full (h : none ∉ r.registry) :
    r.registry.findIdx? Option.isNone = none := by
  refine List.findIdx?_eq_none_iff.2 fun o ho => ?_
  cases o with
  | none => exact absurd ho h
  | some rod => rfl

/-- A full registry gives up its oldest retired entry (R45). -/
theorem Rrc.newEntry_of_retired {rest : List Nat} (h : none ∉ r.registry) (hr : r.retired = i :: rest) :
    r.newEntry = some (i, rest) := by
  rw [Rrc.newEntry, Rrc.findIdx?_isNone_of_full h, hr]

theorem Rrc.newEntry_of_full (h : none ∉ r.registry) (hr : r.retired = []) : r.newEntry = none := by
  rw [Rrc.newEntry, Rrc.findIdx?_isNone_of_full h, hr]

/-- A reservation of the loader's that names a rod (R46). -/
theorem Rrc.loaderNames_iff :
    r.loaderNames i = true ↔ ∃ intent, Slot.reserved .loader intent i ∈ r.slots := by
  rw [Rrc.loaderNames, List.any_eq_true]
  constructor
  · rintro ⟨x, hx, hp⟩
    split at hp
    · next intent j => exact ⟨intent, by simpa using (by simpa using hp) ▸ hx⟩
    · cases hp
  · rintro ⟨intent, hx⟩
    exact ⟨_, hx, by simp⟩

end

/-! ## REGISTER ROD (R45) -/

/-- The rod that a REGISTER ROD in range describes. -/
def Rod.fresh (x : Serial) (len cls clock : Nat) : Rod := ⟨x, len, cls, .rack, 0, 0, false, clock⟩

section
variable {x : Serial} {len cls : Nat} {s : State}

theorem ownRegisterRod_of_out (h : ¬(serialValid x = true ∧ 1500 ≤ len ∧ len ≤ 6100 ∧ 1 ≤ cls ∧ cls ≤ 4)) :
    ownRegisterRod x len cls s = refused .range s := by
  rw [ownRegisterRod]
  split
  · rfl
  · next hv =>
    split
    · rfl
    · exact if_pos (by_contra fun hc => h ⟨by simpa using hv, by omega⟩)

theorem ownRegisterRod_of_in (h : serialValid x = true ∧ 1500 ≤ len ∧ len ≤ 6100 ∧ 1 ≤ cls ∧ cls ≤ 4) :
    ownRegisterRod x len cls s =
      if (s.rrc.find x).isSome then refused .slotOccupied s
      else s.rrc.newEntry.elim (refused .listFull s) fun (i, retired) =>
        (s.setRrc
          { s.rrc with
            registry := s.rrc.registry.set i (some (.fresh x len cls s.now)), retired := retired },
          .ok (be 1 i)) := by
  obtain ⟨hv, h1, h2, h3, h4⟩ := h
  rw [ownRegisterRod, if_neg (by simp [hv]), if_neg (by omega), if_neg (by omega)]
  cases s.rrc.newEntry <;> rfl

end

/-- Settles O26: the range of a serial, the refusals in order, and the entry that is taken. -/
theorem registerRodFillsAnEntry : Obligations.RegisterRodFillsAnEntry := by
  intro dt tag x len cls s hs h
  rw [show s.rrc = h.rrc from heard_rrc.symm, show s.tps.clock = h.now from heard_now.symm]
  intro c r inRange rod
  have same {r : Request} {rep : Reply} (e : own r h = (h, rep)) :
      Host.Outcome.next (ρ := Refusal) (φ := Fault) (requestRow dt tag r s) = .next (h.answering tag r rep) :=
    congrArg _ (requestRow_unchanged hs e)
  have registers (hin : inRange) (hf : h.rrc.find x = none) {i : Nat} {rest : List Nat}
      (hn : h.rrc.newEntry = some (i, rest)) : c = .next ((h.setRrc
        { h.rrc with registry := h.rrc.registry.set i (some rod), retired := rest }).answering
          tag r (.ok (be 1 i))) := by
    refine congrArg _ (requestRow_answering_keeps hs ?_
      ((Keeps.refl h).setRrc (List.length_set ..) rfl) (heard_reports.trans hs.2.1))
    refine (ownRegisterRod_of_in hin).trans ?_
    rw [hf, hn]
    rfl
  refine ⟨serialValid_iff, fun hv => same (r := .retireRod x) (if_pos (by simp [hv])),
    fun hin => same (r := r) (ownRegisterRod_of_out hin), fun hin hf => same (r := r) ?_,
    fun hin hf => ⟨fun i hi => registers hin hf (Rrc.newEntry_of_free hi), fun hfull => ?_⟩⟩
  · exact (ownRegisterRod_of_in hin).trans (if_pos (Option.isSome_iff_ne_none.2 hf))
  · refine ⟨fun hr => same (r := r) ?_,
      fun i rest hr => registers hin hf (Rrc.newEntry_of_retired hfull hr)⟩
    refine (ownRegisterRod_of_in hin).trans ?_
    rw [hf, Rrc.newEntry_of_full hfull hr]
    rfl

/-! ## RETIRE ROD (R46) -/

/-- RETIRE ROD of a rod that the registry has, its serial in range (R46). -/
theorem ownRetireRod_of_rod {x : Serial} {i : Nat} {rod : Rod} {s : State} (hv : serialValid x = true)
    (hf : s.rrc.find x = some i) (hr : s.rrc.rod i = some rod) : ownRetireRod x s =
      if rod.loc ≠ .rack then refused .state s
      else if s.rrc.loaderNames i then refused .busy s
      else done (s.setRrc { (s.rrc.moveRod i .retired) with retired := s.rrc.retired ++ [i] }) := by
  rw [ownRetireRod, if_neg (by simp [hv]), hf]
  simp [Rrc.locOf_of_rod hr]

/-- Settles O27: the refusals in order, and the rod that stays to be found by its serial. -/
theorem retireRodMovesARodFromRackToRetired : Obligations.RetireRodMovesARodFromRackToRetired := by
  intro dt tag x s hs hv h
  rw [show s.rrc = h.rrc from heard_rrc.symm]
  intro c
  have same {rep : Reply} (e : ownRetireRod x h = (h, rep)) :
      c = .next (h.answering tag (.retireRod x) rep) := congrArg _ (requestRow_unchanged hs e)
  refine ⟨fun hf => same ?_, fun i rod hf hr => ?_⟩
  · rw [ownRetireRod, if_neg (by simp [hv]), hf]
    rfl
  · have e := ownRetireRod_of_rod hv hf hr
    refine ⟨fun hl => same (e.trans (if_pos hl)), fun hl hb => same ?_, fun hl hb => ?_⟩
    · exact e.trans ((if_neg (not_not.2 hl)).trans (if_pos (Rrc.loaderNames_iff.2 hb)))
    · have hn : ¬h.rrc.loaderNames i = true := fun hc => by
        obtain ⟨intent, hm⟩ := Rrc.loaderNames_iff.1 hc
        exact hb intent hm
      rw [if_neg (not_not.2 hl), if_neg hn, Rrc.moveRod_of_rod hr] at e
      intro t
      have hfind : t.rrc.find x = some i := by
        have hm := Rrc.find_moveRod (r := h.rrc) (i := i) .retired x
        rw [Rrc.moveRod_of_rod hr] at hm
        exact hm.trans hf
      refine ⟨congrArg _ (requestRow_answering_keeps hs e
        ((Keeps.refl h).setRrc (List.length_set ..) rfl) (heard_reports.trans hs.2.1)), hfind, ?_⟩
      exact (readTally_rod_done x t).2 ⟨hv, by rw [hfind]; rfl⟩

/-! ## Routes and the nearest slot (R54) -/

/-- The nearest slot of a kind is the first, ascending from the index position (R54). -/
theorem Rrc.nearest_eq_some_iff {r : Rrc} {p : Slot → Bool} {n : Nat} : r.nearest p = some n ↔
    ∃ k, k < 40 ∧ n = (r.index + k) % 40 ∧ p (r.slotAt n) = true
      ∧ ∀ j, j < k → p (r.slotAt ((r.index + j) % 40)) = false := by
  rw [Rrc.nearest, Rrc.searchOrder, List.find?_map, Option.map_eq_some_iff]
  refine exists_congr fun k => ?_
  simp only [List.find?_range_eq_some, List.mem_range, Function.comp_apply, Bool.not_eq_true',
    Config.slotCount]
  constructor
  · rintro ⟨⟨hp, hk, hj⟩, rfl⟩
    exact ⟨hk, rfl, hp, hj⟩
  · rintro ⟨hk, rfl, hp, hj⟩
    exact ⟨⟨hp, hk, hj⟩, rfl⟩

/-- The shorter way round, ascending where the two are as long (R54). -/
theorem routeTo_eq {index : Nat} (hi : index < 40) (target : Nat) : routeTo index target =
    if (target + 40 - index) % 40 ≤ 20 then (.ascending, (target + 40 - index) % 40)
    else (.descending, 40 - (target + 40 - index) % 40) := by
  have hm : index % Config.slotCount = index := Nat.mod_eq_of_lt hi
  rw [routeTo, hm]
  rfl

/-- Settles O28: the route's two ways round, the index request's fields, and the search order. -/
theorem routesAreTheShorterWayRound : Obligations.RoutesAreTheShorterWayRound := by
  refine ⟨fun index target hi ht => ?_, fun s c n => ⟨rfl, rfl⟩, fun r p n => Rrc.nearest_eq_some_iff⟩
  refine ⟨routeTo_eq hi target, ?_⟩
  rw [routeTo_eq hi target]
  by_cases ha : (target + 40 - index) % 40 ≤ 20
  · rw [if_pos ha]
    show (index + (target + 40 - index) % 40) % 40 = target
    omega
  · rw [if_neg ha]
    show (index + (40 - (40 - (target + 40 - index) % 40))) % 40 = target
    omega

end Sys2Proof.Machine
end

section
/-! PROOFS. Rods: the loader's messages and the ends of its motions. -/

namespace Sys2Proof.Machine

/-! ## The slot that a load takes (R56) -/

theorem Slot.isEmpty_iff {x : Slot} : x.isEmpty = true ↔ x = .empty := by cases x <;> simp [Slot.isEmpty]

theorem optSlot_of_ne {n : Byte} (h : n ≠ 255) : optSlot n = some n.toNat := if_neg h

theorem optSlot_of_lt {n : Byte} (h : n.toNat < 40) : optSlot n = some n.toNat :=
  optSlot_of_ne fun e => by simp [e] at h

section
variable {r : Rrc} {n : Nat}

theorem Rrc.chooseLoad_of_range (h : 40 ≤ n) : r.chooseLoad (some n) = .error .range := if_pos h

theorem Rrc.chooseLoad_of_empty (h : n < 40) (he : r.slotAt n = .empty) :
    r.chooseLoad (some n) = .ok n :=
  (if_neg (Nat.not_le.2 h)).trans (if_pos (Slot.isEmpty_iff.2 he))

theorem Rrc.chooseLoad_of_taken (h : n < 40) (he : r.slotAt n ≠ .empty) :
    r.chooseLoad (some n) = .error .slotOccupied :=
  (if_neg (Nat.not_le.2 h)).trans (if_neg (Slot.isEmpty_iff.not.2 he))

theorem Rrc.chooseLoad_of_nearest (h : r.nearest Slot.isEmpty = some n) : r.chooseLoad none = .ok n := by
  rw [Rrc.chooseLoad, h]

theorem Rrc.chooseLoad_of_full (h : r.nearest Slot.isEmpty = none) :
    r.chooseLoad none = .error .slotOccupied := by
  rw [Rrc.chooseLoad, h]

end

/-! ## LOAD SLOT and UNLOAD SLOT (R56 to R58) -/

section
variable {s : State}

/-- The slot is reserved, and the loader requests at once where it may (R56 to R58). -/
theorem beginLoader_eq (hr : s.reports = []) (kind : LoadKind) (intent : Intent) (n i : Nat) :
    beginLoader kind intent n i s =
      if s.on .armHome = true ∧ s.rrc.hold = false then
        settle (requestMotion (s.indexReq .loader n) (s.setRrc
          { (s.rrc.putSlot n (.reserved .loader intent i)) with
            loader := some ⟨kind, n, i, .requested⟩ }))
      else s.setRrc
        { (s.rrc.putSlot n (.reserved .loader intent i)) with loader := some ⟨kind, n, i, .waiting⟩ } := by
  rw [beginLoader, loaderTest_waiting (o := ⟨kind, n, i, .waiting⟩) rfl rfl]
  by_cases hc : s.on .armHome = true ∧ s.rrc.hold = false
  · rw [if_pos hc]
    exact congrArg settle (if_pos (loaderMay_iff.2 hc))
  · rw [if_neg hc]
    exact (congrArg settle (if_neg (mt loaderMay_iff.1 hc))).trans (settle_of_nil hr)

theorem beginLoader_keeps (kind : LoadKind) (intent : Intent) (n i : Nat) :
    Keeps s (beginLoader kind intent n i s) :=
  settle_keeps (loaderTest_keeps ((Keeps.refl s).setRrc rfl (List.length_set ..)))

section
variable {x : Serial} {i : Nat} {rod : Rod} {named : Option Nat} (hl : s.rrc.loader = none)
  (hv : serialValid x = true)
include hl hv

theorem ownLoadSlot_of_unknown (hf : s.rrc.find x = none) :
    ownLoadSlot x named s = refused .unknownRod s := by
  rw [ownLoadSlot, if_neg (by simp [hl]), if_neg (by simp [hv]), hf]

variable (hf : s.rrc.find x = some i) (hr : s.rrc.rod i = some rod)
include hf hr

theorem ownLoadSlot_of_away (ha : rod.loc ≠ .rack) : ownLoadSlot x named s = refused .state s := by
  rw [ownLoadSlot, if_neg (by simp [hl]), if_neg (by simp [hv]), hf]
  exact if_pos (by simpa [Rrc.locOf_of_rod hr] using ha)

variable (ha : rod.loc = .rack)
include ha

theorem ownLoadSlot_of_chosen {n : Nat} (hc : s.rrc.chooseLoad named = .ok n) :
    ownLoadSlot x named s = (beginLoader .load .receive n i s, .accept (be 1 n)) := by
  rw [ownLoadSlot, if_neg (by simp [hl]), if_neg (by simp [hv]), hf]
  refine (if_neg (by simp [Rrc.locOf_of_rod hr, ha])).trans ?_
  rw [hc]

theorem ownLoadSlot_of_no_choice {why : Reason} (hc : s.rrc.chooseLoad named = .error why) :
    ownLoadSlot x named s = refused why s := by
  rw [ownLoadSlot, if_neg (by simp [hl]), if_neg (by simp [hv]), hf]
  refine (if_neg (by simp [Rrc.locOf_of_rod hr, ha])).trans ?_
  rw [hc]

end

section
variable {n : Nat} (hl : s.rrc.loader = none) (hn : ¬Config.slotCount ≤ n)
include hl hn

theorem ownUnloadSlot_of_empty (he : s.rrc.slotAt n = .empty) :
    ownUnloadSlot n s = refused .slotEmpty s := by
  rw [ownUnloadSlot, if_neg (by simp [hl]), if_neg hn, he]

theorem ownUnloadSlot_of_reserved {o : Owner} {j : Intent} {i : Nat}
    (he : s.rrc.slotAt n = .reserved o j i) : ownUnloadSlot n s = refused .slotOccupied s := by
  rw [ownUnloadSlot, if_neg (by simp [hl]), if_neg hn, he]

theorem ownUnloadSlot_of_loaded {i : Nat} (he : s.rrc.slotAt n = .loaded i) :
    ownUnloadSlot n s = (beginLoader .unload .take n i s, .accept) := by
  rw [ownUnloadSlot, if_neg (by simp [hl]), if_neg hn, he]

end

end

/-! ## The end of the loader's motion (R59) -/

theorem Rrc.serialOf_of_rod {r : Rrc} {i : Nat} {rod : Rod} (h : r.rod i = some rod) :
    r.serialOf i = rod.serial := by rw [Rrc.serialOf, h]; rfl

/-- The loader's operation ends: the rods and the slot as told, and LOAD DONE (R59). -/
def State.loadEnded (o : LoadOp) (serial : Serial) (registry : List (Option Rod)) (slot : Slot)
    (why : Option FailCause) (u : State) : State :=
  (u.setRrc
    { u.rrc with
      registry := registry, slots := u.rrc.slots.set o.slot slot, loader := none }).raise
        (.loadDone o.kind serial o.slot why)

section
variable {u : State} {o : LoadOp} {x : Rod} (ho : u.rrc.loader = some o)
  (hx : u.rrc.rod o.rod = some x)
include ho hx

theorem loaderDone_of_load (hk : o.kind = .load) : loaderDone u = u.loadEnded o x.serial
    (u.rrc.registry.set o.rod (some { x with loc := .slot o.slot })) (.loaded o.rod) none := by
  rw [loaderDone, ho]
  simp only [hk, Rrc.moveRod_of_rod hx, Rrc.serialOf_of_rod hx, State.loadEnded]
  rfl

theorem loaderDone_of_unload (hk : o.kind = .unload) : loaderDone u = u.loadEnded o x.serial
    (u.rrc.registry.set o.rod (some { x with loc := .rack })) .empty none := by
  rw [loaderDone, ho]
  simp only [hk, Rrc.moveRod_of_rod hx, Rrc.serialOf_of_rod hx, State.loadEnded]
  rfl

theorem loaderFailed_of_reserved {who : Owner} {intent : Intent} {i : Nat} {cause : FailCause}
    (hs : u.rrc.slotAt o.slot = .reserved who intent i) : loaderFailed cause u =
      u.loadEnded o x.serial u.rrc.registry
        (if u.rrc.rodInSlot i o.slot then .loaded i else .empty) (some cause) := by
  rw [loaderFailed, ho]
  simp only [Rrc.freeSlot, hs, Rrc.serialOf_of_rod hx, State.loadEnded]
  rfl

end

/-! The loader's reports, taken at the end of a step in which nothing else is handed on (R59; log 7). -/

section
variable {u : State} {r : Req} (hc : r.client = .loader) (hr : u.reports = [])
include hc hr

theorem settle_complete_loader (how : MotionEnd) :
    settle (u.report (.complete r how)) = loaderDone u := by
  have e : takeReport (.complete r how) u = loaderDone u := by simp only [takeReport, hc]
  have hd : (loaderDone u).reports = u.reports := by unfold loaderDone; split <;> rfl
  rw [settle_report hr (by rw [e, hd, hr]), e]

theorem settle_failed_loader (cause : FailCause) (m : SwitchSet) :
    settle (u.report (.failed r cause m)) = loaderFailed cause u := by
  have e : takeReport (.failed r cause m) u = loaderFailed cause u := by simp only [takeReport, hc]
  have hd : (loaderFailed cause u).reports = u.reports := by unfold loaderFailed; split <;> rfl
  rw [settle_report hr (by rw [e, hd, hr]), e]

end

/-- A rod's recorded location is the slot (R52). -/
theorem Rrc.rodInSlot_iff {r : Rrc} {i n : Nat} :
    r.rodInSlot i n = true ↔ ∃ y, r.rod i = some y ∧ y.loc = .slot n := by
  rw [Rrc.rodInSlot]
  cases r.rod i <;> simp

/-- Settles O29: the checks in order, the beginning of an operation, and the loader's reports. -/
theorem theLoaderReservesAndRequests : Obligations.TheLoaderReservesAndRequests := by
  refine ⟨?_, ?_⟩
  · intro dt tag s hs h
    have hrep : h.reports = [] := heard_reports.trans hs.2.1
    rw [show s.rrc = h.rrc from heard_rrc.symm]
    intro start
    have same {r : Request} {rep : Reply} (e : own r h = (h, rep)) :
        Host.Outcome.next (ρ := Refusal) (φ := Fault) (requestRow dt tag r s) =
          .next (h.answering tag r rep) := congrArg _ (requestRow_unchanged hs e)
    have starts {r : Request} {rep : Reply} {kind : LoadKind} {intent : Intent} {n i : Nat}
        (e : own r h = (beginLoader kind intent n i h, rep)) :
        Host.Outcome.next (ρ := Refusal) (φ := Fault) (requestRow dt tag r s) =
          .next ((start kind intent n i).replying tag r rep) := by
      rw [requestRow_replying_keeps hs e (beginLoader_keeps ..), beginLoader_eq hrep]
    refine ⟨fun x n => ?_, fun n => ?_⟩
    · intro c refuse
      refine ⟨fun hl => same (r := .loadSlot x n) (if_pos (Option.isSome_iff_ne_none.2 hl)), fun hl => ?_⟩
      refine ⟨fun hv => same (r := .loadSlot x n) ?_, fun hv =>
        ⟨fun hf => same (r := .loadSlot x n) (ownLoadSlot_of_unknown hl hv hf), fun i rod hf hr =>
        ⟨fun ha => same (r := .loadSlot x n) (ownLoadSlot_of_away hl hv hf hr ha), fun ha => ?_⟩⟩⟩
      · exact (if_neg (by simp [hl])).trans (if_pos (by simp [hv]))
      have refused {why : Reason} (e : h.rrc.chooseLoad (optSlot n) = .error why) : refuse why :=
        same (r := .loadSlot x n) (ownLoadSlot_of_no_choice hl hv hf hr ha e)
      have chosen {k : Nat} (e : h.rrc.chooseLoad (optSlot n) = .ok k) :
          c = .next ((start .load .receive k i).replying tag (.loadSlot x n) (.accept (be 1 k))) :=
        starts (r := .loadSlot x n) (ownLoadSlot_of_chosen hl hv hf hr ha e)
      refine ⟨fun hn h40 => refused ?_, fun hn he => refused ?_, fun hn he => chosen ?_, ?_, ?_⟩
      · rw [optSlot_of_ne hn, Rrc.chooseLoad_of_range h40]
      · rw [optSlot_of_lt hn, Rrc.chooseLoad_of_taken hn he]
      · rw [optSlot_of_lt hn, Rrc.chooseLoad_of_empty hn he]
      · rintro rfl he
        exact refused (Rrc.chooseLoad_of_full he)
      · rintro k rfl he
        exact chosen (Rrc.chooseLoad_of_nearest he)
    · intro c refuse
      refine ⟨fun hl => same (r := .unloadSlot n) (if_pos (Option.isSome_iff_ne_none.2 hl)), fun hl =>
        ⟨fun hn => same (r := .unloadSlot n) ((if_neg (by simp [hl])).trans (if_pos hn)), fun hn => ?_⟩⟩
      have hn : ¬Config.slotCount ≤ n.toNat := Nat.not_le.2 hn
      exact ⟨fun he => same (r := .unloadSlot n) (ownUnloadSlot_of_empty hl hn he),
        fun o j i he => same (r := .unloadSlot n) (ownUnloadSlot_of_reserved hl hn he),
        fun i he => starts (r := .unloadSlot n) (ownUnloadSlot_of_loaded hl hn he)⟩
  · intro u o r x ho hc hrep hx moved ends
    refine ⟨fun how hk => (settle_complete_loader hc hrep how).trans (loaderDone_of_load ho hx hk),
      fun how hk => (settle_complete_loader hc hrep how).trans (loaderDone_of_unload ho hx hk),
      fun cause m who intent i hslot => ?_⟩
    intro inIt
    rw [settle_failed_loader hc hrep, loaderFailed_of_reserved ho hx hslot]
    simp only [Rrc.rodInSlot_iff]
    rfl

end Sys2Proof.Machine
end

section
/-! PROOFS. Rods: PLACE ROD. -/

namespace Sys2Proof.Machine

/-! ## The destinations of PLACE ROD (R60) -/

theorem Dest.ofCode_of_slot {d : Byte} (h : d.toNat < 40) : Dest.ofCode d = some (.slot d.toNat) := if_pos h

theorem Dest.ofCode_string : Dest.ofCode 40 = some .string := rfl

theorem Dest.ofCode_rack : Dest.ofCode 41 = some .rack := rfl

theorem Dest.ofCode_of_out {d : Byte} (h : 41 < d.toNat) : Dest.ofCode d = none := by
  have h1 : ¬d.toNat < Config.slotCount := fun hc => by simp only [Config.slotCount] at hc; omega
  rw [Dest.ofCode, if_neg h1, if_neg (by omega), if_neg (by omega)]

/-- A size class fits an empty string and one of its own class (R55, R60). -/
theorem Rrc.fitsString_iff {r : Rrc} {cls : Nat} :
    r.fitsString cls = true ↔ ∀ k, r.stringClass = some k → k = cls := by
  rw [Rrc.fitsString]
  cases r.stringClass <;> simp

/-- The rod in the arm is pushed on the string with no torque, its entry written out (R47, R60). -/
theorem Rrc.push_of_rod {r : Rrc} {i : Nat} {rod : Rod} (h : r.rod i = some rod) (t : Option Nat) :
    r.push i t =
      { r with
        registry := r.registry.set i (some { rod with loc := .string (r.string.length + 1) })
        string := r.string ++ [(i, t)], arm := none } := by
  rw [Rrc.push, Rrc.moveRod_of_rod h]

/-! ## PLACE ROD, by its destination -/

section
variable {s : State} {d : Byte}

theorem ownPlaceRod_of_no_rod (h : s.hs.seq ≠ .idle ∨ s.rrc.arm = none) :
    ownPlaceRod d s = refused .state s := by
  rw [ownPlaceRod]
  split
  · rfl
  · next hq => rw [h.resolve_left fun hn => hq (by simpa using hn)]

variable {i : Nat} {rod : Rod} (hq : s.hs.seq = .idle) (ha : s.rrc.arm = some i)
include hq ha

theorem ownPlaceRod_of_out (hd : Dest.ofCode d = none) : ownPlaceRod d s = refused .range s := by
  rw [ownPlaceRod, if_neg (by simp [hq]), ha, hd]

theorem ownPlaceRod_of_taken {n : Nat} (hd : Dest.ofCode d = some (.slot n)) (he : s.rrc.slotAt n ≠ .empty) :
    ownPlaceRod d s = refused .slotOccupied s := by
  rw [ownPlaceRod, if_neg (by simp [hq]), ha, hd]
  exact if_neg (Slot.isEmpty_iff.not.2 he)

theorem ownPlaceRod_of_full (hd : Dest.ofCode d = some .string) (hl : 128 ≤ s.rrc.string.length) :
    ownPlaceRod d s = refused .listFull s := by
  rw [ownPlaceRod, if_neg (by simp [hq]), ha, hd]
  exact if_pos hl

variable (hr : s.rrc.rod i = some rod)
include hr

theorem ownPlaceRod_of_slot {n : Nat} (hd : Dest.ofCode d = some (.slot n)) (he : s.rrc.slotAt n = .empty) :
    ownPlaceRod d s = done (armEmptied (s.setRrc
      { s.rrc with
        registry := s.rrc.registry.set i (some { rod with loc := .slot n })
        slots := s.rrc.slots.set n (.loaded i), arm := none })) := by
  rw [ownPlaceRod, if_neg (by simp [hq]), ha, hd]
  refine (if_pos (Slot.isEmpty_iff.2 he)).trans ?_
  rw [Rrc.moveRod_of_rod hr]
  rfl

theorem ownPlaceRod_of_rack (hd : Dest.ofCode d = some .rack) :
    ownPlaceRod d s = done (armEmptied (s.setRrc
      { s.rrc with registry := s.rrc.registry.set i (some { rod with loc := .rack }), arm := none })) := by
  rw [ownPlaceRod, if_neg (by simp [hq]), ha, hd]
  show done (armEmptied (s.setRrc { (s.rrc.moveRod i .rack) with arm := none })) = _
  rw [Rrc.moveRod_of_rod hr]

variable (hd : Dest.ofCode d = some .string) (hl : s.rrc.string.length < 128)
include hd hl

theorem ownPlaceRod_of_misfit (hc : ¬s.rrc.fitsString rod.cls = true) :
    ownPlaceRod d s = refused .interlock s := by
  rw [ownPlaceRod, if_neg (by simp [hq]), ha, hd]
  refine (if_neg (Nat.not_le.2 hl)).trans (if_neg ?_)
  rw [hr]
  exact hc

theorem ownPlaceRod_of_string (hc : s.rrc.fitsString rod.cls = true) :
    ownPlaceRod d s = done (armEmptied (deliverLength (s.setRrc
      { s.rrc with
        registry := s.rrc.registry.set i (some { rod with loc := .string (s.rrc.string.length + 1) })
        string := s.rrc.string ++ [(i, none)], arm := none }))) := by
  rw [ownPlaceRod, if_neg (by simp [hq]), ha, hd, ← Rrc.push_of_rod hr]
  refine (if_neg (Nat.not_le.2 hl)).trans (if_pos ?_)
  rw [hr]
  exact hc

end

/-- Settles O30: the refusals in order, and the three destinations. -/
theorem placeRodRecordsTheRod : Obligations.PlaceRodRecordsTheRod := by
  intro dt tag d s hs h
  rw [show s.rrc = h.rrc from heard_rrc.symm, show s.hs.seq = h.hs.seq by simp [h, State.heard]]
  intro c refuse place
  have same {why : Reason} (e : ownPlaceRod d h = refused why h) : refuse why :=
    congrArg _ (requestRow_unchanged (r := .placeRod d) hs e)
  have placed {t : State} (k : Keeps h t) (e : ownPlaceRod d h = done (armEmptied t)) : place t :=
    congrArg _ (requestRow_replying_keeps (r := .placeRod d) hs e (settle_keeps (setDepthHold_keeps k)))
  have moved {x : Rrc} (e1 : x.registry.length = h.rrc.registry.length)
      (e2 : x.slots.length = h.rrc.slots.length) : Keeps h (h.setRrc x) := (Keeps.refl h).setRrc e1 e2
  refine ⟨fun hn => same (ownPlaceRod_of_no_rod hn), fun i rod hq ha hr =>
    ⟨fun hd => same (ownPlaceRod_of_out hq ha (Dest.ofCode_of_out hd)),
    fun hd he => same (ownPlaceRod_of_taken hq ha (Dest.ofCode_of_slot hd) he),
    fun hd he => placed (moved (List.length_set ..) (List.length_set ..))
      (ownPlaceRod_of_slot hq ha hr (Dest.ofCode_of_slot hd) he), ?_, ?_, ?_⟩⟩
  · rintro rfl hl
    exact same (ownPlaceRod_of_full hq ha Dest.ofCode_string hl)
  · rintro rfl hl
    refine ⟨fun hc => same (ownPlaceRod_of_misfit hq ha hr Dest.ofCode_string hl fun hf => ?_),
      fun hc => placed (deliverLength_keeps (moved (List.length_set ..) rfl))
        (ownPlaceRod_of_string hq ha hr Dest.ofCode_string hl (Rrc.fitsString_iff.2 hc))⟩
    obtain ⟨k, hk, hne⟩ := hc
    exact hne (Rrc.fitsString_iff.1 hf k hk)
  · rintro rfl
    exact placed (moved (List.length_set ..) rfl) (ownPlaceRod_of_rack hq ha hr Dest.ofCode_rack)

end Sys2Proof.Machine
end

section
/-! PROOFS. Handling: ABORT. -/

namespace Sys2Proof.Machine

/-! ## Replies that carry the handling status (R77) -/

theorem withStatus_refused (why : Reason) (s : State) :
    withStatus (refused why s) = (s, .refuse why (handlingStatus s)) := rfl

theorem withStatus_done (s : State) : withStatus (done s) = (s, .ok (handlingStatus s)) := rfl

/-! ## What ABORT lets go of (R96) -/

/-- The slot as the operation's reservation leaves it: LOADED if its rod is still in it, and EMPTY if
not; a slot that HANDLING does not hold stands (R52). -/
def Rrc.unreserved (r : Rrc) (n : Nat) : Slot :=
  match r.slotAt n with
  | .reserved .handling _ i => if r.rodInSlot i n then .loaded i else .empty
  | x => x

/-- The sequencer without its operation, group 0 disarmed (R96). -/
def State.opDropped (u : State) : State :=
  (disarmGroup .g0 u).setHs { u.hs with op := none, cause := none, stall := none, seq := .idle }

/-- The depth hold is released where the arm is empty (R88, R96). -/
def State.armReleased (u : State) : State := if u.rrc.arm = none then setDepthHold false u else u

/-- OP ABORTED, of the rod and the arm as they stand (R96). -/
def State.abortTold (o : OpRec) (u : State) : State :=
  u.raise (.opAborted o.op o.stage (u.rrc.serialOf o.rod) u.rrc.arm)

/-- The trip of a trip's operation ends (R100). -/
def State.tripDropped (o : OpRec) (why : TripEnd) (u : State) : State :=
  if o.trip then endTrip why u else u

section
variable {s : State} {o : OpRec}

theorem endTrip_of_trip {t : TripRec} (h : s.hs.trip = some t) (why : TripEnd) : endTrip why s =
    (s.setHs { s.hs with trip := some { t with ended := some (why, s.now) }, seq := .idle }).raise
      (.tripEnded t.dir t.count t.done why) := by
  rw [endTrip, h]

theorem tripDropped_reports (why : TripEnd) : (s.tripDropped o why).reports = s.reports := by
  unfold State.tripDropped endTrip
  split
  · split <;> rfl
  · rfl

theorem abortOp_eq (o : OpRec) (s : State) : abortOp o s =
    (((setHold false (freeReservation o (withdraw .handling s))).opDropped.armReleased).abortTold
      o).tripDropped o (if s.hs.seq = .faulted then .fault else .aborted) := by
  simp only [abortOp, State.tripDropped, State.armReleased, beq_iff_eq, Option.isNone_iff_eq_none]
  rfl

/-- With no other request than the operation's, and no index motion, the arbiter is left empty (R68,
R70). -/
theorem withdraw_of_alone (h : s.ahaOk) (hs : s.aha.stack = []) (hw : s.aha.waiting = [])
    (hq : ∀ q, s.aha.holder = some q → q.client = .handling ∧ q.fn ≠ .index) :
    withdraw .handling s = s.setAha ⟨none, [], [], none⟩ := by
  cases hh : s.aha.holder with
  | none =>
    obtain ⟨-, -, hv⟩ := (Aha.ok_none hh).1 h
    have hn : ¬s.aha.holds .handling = true := by simp [holds_iff, hh]
    simp only [withdraw, hn, hs, hw, hh, hv]
    rfl
  | some q =>
    obtain ⟨hc, hf⟩ := hq q hh
    have e : stopHolder s = s.setAha ⟨none, [], [], none⟩ := by
      simp only [stopHolder, hh, hf, if_false, hs, hw]
    rw [withdraw, if_pos (holds_iff.2 ⟨q, hh, hc⟩), e]
    rfl

theorem Rrc.putSlot_slotAt (r : Rrc) (n : Nat) : r.putSlot n (r.slotAt n) = r := by
  have e : r.slots.set n (r.slotAt n) = r.slots := by
    refine List.ext_getElem? fun m => ?_
    by_cases hm : n = m
    · subst hm
      by_cases hn : n < r.slots.length <;> simp [Rrc.slotAt, List.getD_eq_getElem?_getD, hn]
    · simp [hm]
  rw [Rrc.putSlot, e]

theorem Rrc.unreserved_of_other {r : Rrc} {n : Nat}
    (h : ∀ intent i, r.slotAt n = .reserved .handling intent i → False) : r.unreserved n = r.slotAt n := by
  unfold Rrc.unreserved
  split
  · next e => exact (h _ _ e).elim
  · rfl

/-- The reservation is freed, if it still stands (R52, R96). -/
theorem freeReservation_eq (o : OpRec) (s : State) : freeReservation o s =
    s.setRrc (s.rrc.putSlot o.slot (s.rrc.unreserved o.slot)) := by
  unfold freeReservation
  split
  · next e => rw [Rrc.freeSlot, Rrc.unreserved, e]
  · next h => rw [Rrc.unreserved_of_other h, Rrc.putSlot_slotAt]; rfl

/-- With the loader free the hold is set and cleared with no more (R58). -/
theorem setHold_of_no_loader (h : s.rrc.loader = none) (b : Bool) :
    setHold b s = s.setRrc { s.rrc with hold := b } := by
  by_cases hb : s.rrc.hold = b
  · subst hb
    exact if_pos rfl
  · exact (if_neg hb).trans (loaderTest_of_none h)

/-- The state without the operation and what it held, nothing following from the grant or the hold
(R96). -/
def State.letGo (o : OpRec) (s : State) : State :=
  (((s.setAha ⟨none, [], [], none⟩).setSfe { s.sfe with g0 := ⟨0, 0, 0, s.sfe.g0.flag⟩ }).setRrc
    { s.rrc with slots := s.rrc.slots.set o.slot (s.rrc.unreserved o.slot), hold := false }).setHs
      { s.hs with seq := .idle, op := none, cause := none, stall := none }

/-- An operation aborted with its rod in the arm, the loader free and no other request standing. -/
theorem abortOp_of_alone (h : s.ahaOk) (hs : s.aha.stack = []) (hw : s.aha.waiting = [])
    (hq : ∀ q, s.aha.holder = some q → q.client = .handling ∧ q.fn ≠ .index)
    (hl : s.rrc.loader = none) (ha : s.rrc.arm ≠ none) : abortOp o s =
      ((s.letGo o).abortTold o).tripDropped o (if s.hs.seq = .faulted then .fault else .aborted) := by
  have hh : setHold false (freeReservation o (withdraw .handling s)) =
      (s.setAha ⟨none, [], [], none⟩).setRrc
        { (s.rrc.putSlot o.slot (s.rrc.unreserved o.slot)) with hold := false } := by
    rw [withdraw_of_alone h hs hw hq, freeReservation_eq]
    refine (setHold_of_no_loader ?_ false).trans rfl
    exact hl
  have hd : (setHold false (freeReservation o (withdraw .handling s))).opDropped = s.letGo o := by
    rw [hh, State.opDropped, disarmGroup_eq]
    rfl
  have hr : (s.letGo o).armReleased = s.letGo o := if_neg ha
  rw [abortOp_eq, hd, hr]

end

/-- Settles O35: the refusal, the trip between operations, and the operation in flight, with what it
held and with nothing else in the arbiter. -/
theorem abortEndsTheOperation : Obligations.AbortEndsTheOperation := by
  intro dt tag s hs h
  have hon : s.tps.phase ≠ .off := by simp [hs.1]
  have hrep : h.reports = [] := heard_reports.trans hs.2.1
  have hok (ok : s.ahaOk) : h.ahaOk := by
    show h.aha.ok = true
    rw [heard_aha hon]
    exact elapse_ok dt ok
  have hholder (hq : ∀ q, s.aha.holder = some q → q.client = .handling ∧ q.fn ≠ .index) :
      ∀ q, h.aha.holder = some q → q.client = .handling ∧ q.fn ≠ .index := by
    intro q e
    rw [heard_aha hon] at e
    obtain ⟨p, hp, rfl⟩ := Option.map_eq_some_iff.1 e
    exact hq p hp
  rw [show s.rrc = h.rrc from heard_rrc.symm, show s.tps.clock = h.now from heard_now.symm,
    show s.hs.seq = h.hs.seq by simp [h, State.heard], show s.hs.op = h.hs.op by simp [h, State.heard],
    show s.hs.trip = h.hs.trip by simp [h, State.heard],
    show s.sfe.g0 = h.sfe.g0 by simp [h, State.heard],
    show s.aha.stack = h.aha.stack by simp [h, State.heard],
    show s.aha.waiting = h.aha.waiting by simp [h, State.heard]]
  intro c
  refine ⟨fun hq => congrArg _ (requestRow_unchanged (r := .abort) hs ?_), fun t hq ho ht => ?_,
    fun o hq ho => ?_⟩
  · show withStatus (ownAbort h) = _
    rw [ownAbort, if_pos hq, withStatus_refused]
  · intro u
    have e : own .abort h = (u, .ok (handlingStatus u)) := by
      show withStatus (ownAbort h) = _
      rw [ownAbort, if_neg hq, ho]
      show withStatus (done (endTrip .aborted h)) = _
      rw [endTrip_of_trip ht, withStatus_done]
    exact congrArg _ (requestRow_answering_keeps hs e (Keeps.refl h).setHs.raise hrep)
  · intro free why off release told ends t
    have hends (u : State) : ends u = u.tripDropped o why := by
      simp only [ends, State.tripDropped]
      cases o.trip with
      | false => rfl
      | true => cases ht : u.hs.trip <;> simp only [endTrip, ht] <;> rfl
    have e {u : State} (ha : abortOp o h = u) : ownAbort h = done (settle u) := by
      rw [ownAbort, if_neg hq, ho, ← ha]
    have ht : t = settle (abortOp o h) := by
      show settle _ = _
      rw [hends, abortOp_eq]
      rfl
    have kt : Keeps h t := ht ▸ settle_keeps (abortOp_keeps (Keeps.refl h))
    refine ⟨congrArg _ (requestRow_replying_keeps (r := .abort) hs ?_ kt), ?_⟩
    · show withStatus (ownAbort h) = _
      rw [e rfl, ← ht, withStatus_done]
    · intro rod ok harm hl hst hw hq slot u
      have hslot : slot = h.rrc.unreserved o.slot := by
        cases hx : h.rrc.slotAt o.slot with
        | reserved who intent i =>
          cases who <;> simp only [slot, Rrc.unreserved, hx, Rrc.rodInSlot_iff]
        | _ => simp only [slot, Rrc.unreserved, hx]
      have hu : h.letGo o = u := by
        rw [State.letGo, ← hslot]
        refine congrArg (State.setHs _) ?_
        rw [heard_hs hon]
        rfl
      have ha : abortOp o h = ends (told u) := by
        rw [hends, abortOp_of_alone (hok ok) hst hw (hholder hq) hl (by simp [harm]), hu]
        rfl
      have hr : (ends (told u)).reports = [] := by
        rw [hends]
        exact (tripDropped_reports _).trans hrep
      refine congrArg _ (requestRow_answering_keeps (r := .abort) hs ?_
        (ha ▸ abortOp_keeps (Keeps.refl h)) hr)
      show withStatus (ownAbort h) = _
      rw [e ha, settle_of_nil hr, withStatus_done]

end Sys2Proof.Machine
end

section
/-! PROOFS. Handling: how a stage begins, and ADD ROD and REMOVE ROD. -/

namespace Sys2Proof.Machine

/-! ## Group 0 at a stage (R80, R92) -/

/-- The switches of a set that are expected on and are off (R12). -/
def State.mismOn (g : SwitchSet) (s : State) : SwitchSet := (s.sfe.debounced ^^^ g) &&& g

theorem writeGroup_g0_eq (g : SwitchSet) (s : State) : writeGroup .g0 g g s =
    (s.setSfe { s.sfe with g0 := ⟨g, g, s.mismOn g, s.sfe.g0.flag || s.mismOn g != 0⟩ },
      s.mismOn g != 0) := by
  simp only [writeGroup, BitVec.and_self]
  rfl

/-- CLAMP CLOSED is selected after CLAMP's end and before UNCLAMP, in each operation's table (R80). -/
theorem selectsClamp_addRod : ∀ st ∈ Op.addRod.stages, (selectsClamp .addRod st = true ↔
    st ∈ [Stage.unscrew, .index, .present, .make, .ret]) := by decide

theorem selectsClamp_removeRod : ∀ st ∈ Op.removeRod.stages, (selectsClamp .removeRod st = true ↔
    st ∈ [Stage.brk, .spin, .catchRod, .free, .stow, .ret, .reconnect]) := by decide

theorem selectsClamp_iff {op : Op} {st : Stage} (h : st ∈ op.stages) : selectsClamp op st = true ↔
    (op = .addRod ∧ st ∈ [Stage.unscrew, .index, .present, .make, .ret])
      ∨ (op = .removeRod ∧ st ∈ [Stage.brk, .spin, .catchRod, .free, .stow, .ret, .reconnect]) := by
  cases op with
  | addRod => simp only [selectsClamp_addRod st h, true_and, reduceCtorEq, false_and, or_false]
  | removeRod => simp only [selectsClamp_removeRod st h, true_and, reduceCtorEq, false_and, false_or]

theorem opening_iff {st : Stage} : st.opening = true ↔ st = .unscrew ∨ st = .brk ∨ st = .spin := by
  cases st <;> simp [Stage.opening]

/-! ## The beginning of a stage (R79, R90) -/

/-- The operation at a stage that has begun. -/
def OpRec.begunAt (st : Stage) (o : OpRec) : OpRec :=
  { o with stage := st, begun := true, wrench := .grip }

/-- Group 0 written for a stage and the stage chosen, before it starts (R79, R80). -/
def State.stageBegun (o : OpRec) (g : SwitchSet) (u : State) : State :=
  (u.setSfe { u.sfe with g0 := ⟨g, g, u.mismOn g, u.sfe.g0.flag || u.mismOn g != 0⟩ }).setHs
    { u.hs with op := some o, seq := .waiting, stall := none }

section
variable {u : State} {o : OpRec} {st : Stage}

theorem holdOp_of_op (h : u.hs.op = some o) (cause : HeldCause) (mism : Option SwitchSet) :
    holdOp cause mism u = (withdraw .handling (u.setHs
      { u.hs with seq := .held, cause := some (.held cause mism), stall := none })).raise
        (.opHeld o.op o.stage cause mism) := by
  rw [holdOp, h]

/-- In a gain wait a string-opening stage is chosen and not begun (R90). -/
theorem beginStage_of_gainWait (ho : u.hs.op = some o) (h1 : st.opening = true)
    (h2 : u.cm.gainLatch ≠ none) : beginStage st u = u.setHs
      { u.hs with
        op := some { o with stage := st, begun := false, wrench := .grip }
        seq := .waiting, stall := none } := by
  rw [beginStage, ho]
  exact if_pos (by simpa [h1] using Option.isSome_iff_ne_none.2 h2)

variable (ho : u.hs.op = some o) (hg : ¬(st.opening = true ∧ u.cm.gainLatch ≠ none))
include ho hg

theorem beginStage_of_no_gain : beginStage st u =
    let t := u.stageBegun (o.begunAt st) (guardOf o.op st)
    if u.mismOn (guardOf o.op st) != 0 then holdOp .guard (some (u.mismOn (guardOf o.op st))) t
    else startStage (o.begunAt st) t := by
  rw [beginStage, ho]
  refine (if_neg ?_).trans ?_
  · simpa [Option.isSome_iff_ne_none] using hg
  · simp only [writeGroup_g0_eq]
    rfl

theorem beginStage_of_mismatch (hm : u.mismOn (guardOf o.op st) ≠ 0) : beginStage st u =
    holdOp .guard (some (u.mismOn (guardOf o.op st)))
      (u.stageBegun (o.begunAt st) (guardOf o.op st)) :=
  (beginStage_of_no_gain ho hg).trans (if_pos (by simpa using hm))

theorem beginStage_of_match (hm : u.mismOn (guardOf o.op st) = 0) : beginStage st u =
    startStage (o.begunAt st) (u.stageBegun (o.begunAt st) (guardOf o.op st)) :=
  (beginStage_of_no_gain ho hg).trans (if_neg (by simp [hm]))

end

/-! ## The start of a stage, by its kind (R81 to R88) -/

section
variable {s : State} {o : OpRec}

theorem hsTest_of_waiting (ho : s.hs.op = some o) (hw : s.hs.seq = .waiting) (hb : o.begun = true) :
    hsTest s = if conditionMet o s then s.report (.stageMet o.stage) else s := by
  rw [hsTest, ho]
  simp [hw, hb]

theorem quietMet_iff : quietMet s = true ↔ s.cm.pump1.st = .stopped ∧ s.cm.pump2.st = .stopped
    ∧ s.cm.mon = .idle ∧ s.cm.fcResult = .passed ∧ s.cm.gainLatch = none := by
  simp [quietMet, Cm.quiet, and_assoc]

theorem torqueMet_iff : torqueMet s = true ↔
    s.sfe.torque.st ≠ .good ∨ ∃ x, s.sfe.torque.value = some x ∧ s.pMakeTorque ≤ x := by
  cases hv : s.sfe.torque.value <;> simp [torqueMet, Analogue.isFaulted, hv]

theorem conditionMet_quiet (h : o.stage = .quiet) : conditionMet o s = quietMet s := by
  rw [conditionMet, h]

theorem conditionMet_off (h : o.stage = .unscrew ∨ o.stage = .free) :
    conditionMet o s = true ↔ s.on .headConnected = false := by
  rcases h with h | h <;> simp [conditionMet, h]

theorem conditionMet_reconnect (h : o.stage = .reconnect) : conditionMet o s = s.on .headConnected := by
  rw [conditionMet, h]

theorem conditionMet_make (h : o.stage = .make) : conditionMet o s = true ↔
    s.on .headConnected = true
      ∧ (s.sfe.torque.st ≠ .good ∨ ∃ x, s.sfe.torque.value = some x ∧ s.pMakeTorque ≤ x) := by
  rw [conditionMet, h, ← torqueMet_iff]
  exact Bool.and_eq_true_iff

theorem conditionMet_lift (h : o.stage = .lift) : conditionMet o s = true ↔
    s.sfe.enc = .good ∧ ∃ x rod, s.sfe.head = some x ∧ s.rrc.rod o.rod = some rod ∧ rod.length ≤ x := by
  rw [conditionMet, h]
  cases s.sfe.enc <;> cases s.sfe.head <;> cases s.rrc.rod o.rod <;> simp

theorem conditionMet_spin (h : o.stage = .spin) : conditionMet o s = true ↔
    s.pSpinTurns ≤ (s.sfe.rotCount + (2 ^ 32 - o.rotBase)) % 2 ^ 32 := by
  simp [conditionMet, h]

/-- RETURN moves the arm home, from the centre in ADD ROD and from the carousel in REMOVE ROD (R83,
R85). -/
theorem startStage_of_addRod_ret (h : o.stage = .ret) (ho : o.op = .addRod) : startStage o s =
    requestMotion (Req.new .handling .arm .second (.switch .armHome))
      (s.setHs { s.hs with seq := .running, stall := none }) := by
  obtain ⟨op, rod, slot, stage, begun, trip, wrench, rotBase, peak⟩ := o
  cases h
  cases ho
  rfl

theorem startStage_of_removeRod_ret (h : o.stage = .ret) (ho : o.op = .removeRod) : startStage o s =
    requestMotion (Req.new .handling .arm .first (.switch .armHome))
      (s.setHs { s.hs with seq := .running, stall := none }) := by
  obtain ⟨op, rod, slot, stage, begun, trip, wrench, rotBase, peak⟩ := o
  cases h
  cases ho
  rfl

/-- The operation's working figures as a stage that is waited in starts (R84, R86). -/
def OpRec.figured (v : State) (o : OpRec) : OpRec :=
  { o with
    rotBase := if o.stage = .spin then v.sfe.rotCount else o.rotBase
    peak := if o.stage = .make then none else o.peak }

/-- A stage is waited in, a driller's under the stall timer (R81, R82). -/
def State.stageWaits (o : OpRec) (v : State) : State :=
  v.setHs
    { v.hs with
      op := some (o.figured v), seq := .waiting
      stall := if o.stage = .quiet then none else some 300000 }

/-- UNSCREW stands under the depth hold (R88). -/
def State.unscrewHeld (st : Stage) (s : State) : State :=
  if st = .unscrew then setDepthHold true s else s

/-- The stages that are waited in, QUIET and the driller's (R81 to R86). -/
def waitStages : List Stage := [.quiet, .unscrew, .make, .lift, .spin, .free, .reconnect]

theorem startStage_of_wait (h : o.stage ∈ waitStages) :
    startStage o s = hsTest ((s.unscrewHeld o.stage).stageWaits o) := by
  obtain ⟨op, rod, slot, stage, begun, trip, wrench, rotBase, peak⟩ := o
  simp only [waitStages, List.mem_cons, List.not_mem_nil, or_false] at h
  rcases h with rfl | rfl | rfl | rfl | rfl | rfl | rfl <;> rfl

/-- A stage that is waited in is tested as it starts (R79). -/
theorem startStage_of_met (h : o.stage ∈ waitStages) (hb : o.begun = true) :
    let v := s.unscrewHeld o.stage
    startStage o s =
      if conditionMet (o.figured v) (v.stageWaits o) then (v.stageWaits o).report (.stageMet o.stage)
      else v.stageWaits o := by
  intro v
  rw [startStage_of_wait h]
  exact hsTest_of_waiting (o := o.figured v) rfl rfl hb

/-- When a stage's condition is met as it starts, by the stage (R81, R83 to R86). -/
theorem conditionMet_figured_iff {st : Stage} (h : st ∈ waitStages) (o : OpRec) (v : State) :
    conditionMet ((o.begunAt st).figured v) (v.stageWaits (o.begunAt st)) = true ↔
      (st = .quiet ∧ quietMet v = true)
        ∨ ((st = .unscrew ∨ st = .free) ∧ v.on .headConnected = false)
        ∨ (st = .reconnect ∧ ¬v.on .headConnected = false)
        ∨ (st = .make ∧ ¬v.on .headConnected = false ∧ (v.sfe.torque.st ≠ .good
          ∨ ∃ x, v.sfe.torque.value = some x ∧ v.pMakeTorque ≤ x))
        ∨ (st = .lift ∧ v.sfe.enc = .good ∧ ∃ x rod, v.sfe.head = some x
          ∧ v.rrc.rod o.rod = some rod ∧ rod.length ≤ x)
        ∨ (st = .spin ∧ v.pSpinTurns ≤ (v.sfe.rotCount + (2 ^ 32 - v.sfe.rotCount)) % 2 ^ 32) := by
  simp only [waitStages, List.mem_cons, List.not_mem_nil, or_false] at h
  simp only [Bool.not_eq_false]
  rcases h with rfl | rfl | rfl | rfl | rfl | rfl | rfl <;>
    simp only [reduceCtorEq, true_and, false_and, or_false, false_or, or_true]
  · exact Iff.of_eq (congrArg (· = true) (conditionMet_quiet rfl))
  · exact conditionMet_off (.inl rfl)
  · exact conditionMet_make rfl
  · exact conditionMet_lift rfl
  · exact conditionMet_spin rfl
  · exact conditionMet_off (.inr rfl)
  · exact Iff.of_eq (congrArg (· = true) (conditionMet_reconnect rfl))

end

/-! ## The start of an operation (R78) -/

section
variable {op : Op} {slot rod : Nat} {trip : Bool} {s : State}

/-- The operation as it starts, its QUIET stage begun (R78). -/
def OpRec.fresh (op : Op) (slot rod : Nat) (trip : Bool) : OpRec :=
  ⟨op, rod, slot, .quiet, true, trip, .grip, 0, none⟩

/-- The operation chosen and the flags of groups 0 and 1 cleared (R14, R78). -/
def State.opChosen (op : Op) (slot rod : Nat) (trip : Bool) (s : State) : State :=
  clearStopFlags (s.setHs
    { s.hs with
      op := some { OpRec.fresh op slot rod trip with begun := false }, cause := none
      seq := .waiting, stall := none })

/-- QUIET begun with group 0 written (R78, R80). -/
def State.opStarted (op : Op) (slot rod : Nat) (trip : Bool) (s : State) : State :=
  (s.setSfe
    { s.sfe with
      g0 := ⟨stageSet, stageSet, s.mismOn stageSet, s.mismOn stageSet != 0⟩
      g1 := { s.sfe.g1 with flag := false } }).setHs
    { s.hs with
      op := some (.fresh op slot rod trip), cause := none, seq := .waiting, stall := none }

theorem guardOf_quiet (op : Op) : guardOf op .quiet = stageSet := by cases op <;> rfl

/-- QUIET begins: the operation is held by a watched switch that is off, or goes on (R78, R92). -/
theorem startOp_eq : startOp op slot rod trip s =
    if s.mismOn stageSet != 0 then
      holdOp .guard (some (s.mismOn stageSet)) (s.opStarted op slot rod trip)
    else startStage (.fresh op slot rod trip) (s.opStarted op slot rod trip) := by
  have e := beginStage_of_no_gain (u := s.opChosen op slot rod trip) (st := .quiet) rfl
    (by simp [Stage.opening])
  simp only [guardOf_quiet] at e
  exact e

theorem startOp_of_mismatch (hm : s.mismOn stageSet ≠ 0) : startOp op slot rod trip s =
    (withdraw .handling ((s.opStarted op slot rod trip).setHs
      { (s.opStarted op slot rod trip).hs with
        seq := .held, cause := some (.held .guard (some (s.mismOn stageSet))) })).raise
          (.opHeld op .quiet .guard (some (s.mismOn stageSet))) := by
  rw [startOp_eq, if_pos (by simpa using hm), holdOp_of_op (o := .fresh op slot rod trip) rfl]
  rfl

/-- With both switches on QUIET is tested at once (R79, R81). -/
theorem startOp_of_match (hm : s.mismOn stageSet = 0) : startOp op slot rod trip s =
    if quietMet s then (s.opStarted op slot rod trip).report (.stageMet .quiet)
    else s.opStarted op slot rod trip := by
  rw [startOp_eq, if_neg (by simp [hm]), startStage_of_met (by simp [OpRec.fresh, waitStages]) rfl,
    conditionMet_quiet rfl]
  rfl

/-! ## ADD ROD and REMOVE ROD (R77, R78) -/

theorem takeOperation_of_busy {named : Option Nat} (h : s.hs.seq ≠ .idle) :
    takeOperation op named s = refused .busy s := if_pos (by simpa using h)

section
variable {named : Option Nat} (hq : s.hs.seq = .idle)
include hq

theorem takeOperation_of_arm (ha : s.rrc.arm ≠ none) :
    takeOperation op named s = refused .armOccupied s :=
  (if_neg (by simp [hq])).trans (if_pos (Option.isSome_iff_ne_none.2 ha))

variable (ha : s.rrc.arm = none)
include ha

theorem takeOperation_of_no_choice {why : Reason} (hc : s.rrc.choose op named = .error why) :
    takeOperation op named s = refused why s := by
  rw [takeOperation, if_neg (by simp [hq]), if_neg (by simp [ha]), hc]

theorem takeOperation_of_choice (hc : s.rrc.choose op named = .ok (slot, rod)) :
    takeOperation op named s =
      (settle (startOp op slot rod false (s.setRrc (s.rrc.reserveFor op slot rod))),
        .accept (be 1 slot ++ serialBytes (s.rrc.serialOf rod))) := by
  rw [takeOperation, if_neg (by simp [hq]), if_neg (by simp [ha]), hc]
  rfl

end

end

/-- The request that begins an operation (R77). -/
def Op.request (op : Op) (n : Byte) : Request :=
  match op with
  | .addRod => .addRod n
  | .removeRod => .removeRod n

theorem own_request (op : Op) (n : Byte) (s : State) :
    own (op.request n) s = withStatus (takeOperation op (optSlot n) s) := by cases op <;> rfl

section
variable {s u : State} {dt : Nat} {tag n : Byte} {op : Op} {k i : Nat} (hs : s.ready)
  (hq : (s.heard dt).hs.seq = .idle) (ha : (s.heard dt).rrc.arm = none)
  (hx : (s.heard dt).rrc.choose op (optSlot n) = .ok (k, i))
  (hu : startOp op k i false ((s.heard dt).setRrc ((s.heard dt).rrc.reserveFor op k i)) = u)
include hs hq ha hx hu

/-- An operation that is taken, by what its start leaves: the reply has the slot, the serial and the
handling status (R77, R78). -/
theorem requestRow_operation : requestRow dt tag (op.request n) s =
    (settle u).replying tag (op.request n)
      (.accept (be 1 k ++ serialBytes ((s.heard dt).rrc.serialOf i) ++ handlingStatus (settle u))) := by
  refine requestRow_replying_keeps hs ?_ (hu ▸ settle_keeps
    (startOp_keeps ((Keeps.refl _).setRrc rfl (List.length_set ..))))
  rw [own_request, takeOperation_of_choice hq ha hx, hu]
  rfl

theorem requestRow_operation_quiet (hr : u.reports = []) : requestRow dt tag (op.request n) s =
    u.answering tag (op.request n)
      (.accept (be 1 k ++ serialBytes ((s.heard dt).rrc.serialOf i) ++ handlingStatus u)) := by
  refine requestRow_answering_keeps hs ?_ (hu ▸ startOp_keeps
    ((Keeps.refl _).setRrc rfl (List.length_set ..))) hr
  rw [own_request, takeOperation_of_choice hq ha hx, hu, settle_of_nil hr]
  rfl

end

/-- Settles O31: the operation by its checks and its QUIET stage, and the beginning of every stage by its
kind. -/
theorem anOperationStartsInQuiet : Obligations.AnOperationStartsInQuiet := by
  refine ⟨?_, fun u => quietMet_iff, fun b u => rfl, ?_⟩
  · intro dt tag n op s hs h
    rw [show s.rrc = h.rrc from heard_rrc.symm, show s.hs.seq = h.hs.seq by simp [h, State.heard],
      show s.sfe.g1 = h.sfe.g1 by simp [h, State.heard]]
    intro c r slot watched m
    have hc : c = .next (requestRow dt tag (op.request n) s) := by cases op <;> rfl
    have same {why : Reason} (e : takeOperation op slot h = refused why h) :
        c = .next (h.answering tag r (.refuse why (handlingStatus h))) := by
      rw [hc, requestRow_unchanged hs ((own_request op n h).trans (congrArg withStatus e))]
      rfl
    refine ⟨fun hq => same (takeOperation_of_busy hq), fun hq ha => same (takeOperation_of_arm hq ha),
      fun why hq ha hx => same (takeOperation_of_no_choice hq ha hx), fun k i hq ha hx => ?_⟩
    intro t reply
    have ht : t = (h.setRrc (h.rrc.reserveFor op k i)).opStarted op k i false := by
      rw [State.opStarted]
      refine congrArg (State.setHs _) ?_
      simp only [State.setRrc_hs, h, heard_hs (show s.tps.phase ≠ .off by simp [hs.1])]
      rfl
    have matched (hm : m = 0) : startOp op k i false (h.setRrc (h.rrc.reserveFor op k i)) =
        if quietMet h then t.report (.stageMet .quiet) else t := by
      rw [ht]
      exact startOp_of_match hm
    have held (hm : m ≠ 0) : startOp op k i false (h.setRrc (h.rrc.reserveFor op k i)) =
        (withdraw .handling (t.setHs
          { t.hs with seq := .held, cause := some (.held .guard (some m)) })).raise
            (.opHeld op .quiet .guard (some m)) := by
      rw [ht]
      exact startOp_of_mismatch hm
    rw [hc]
    refine ⟨fun hm hn => ?_, fun hm hn => ?_, fun hm => ?_⟩
    · have hu := (matched hm).trans (if_neg (Bool.eq_false_iff.1 hn))
      exact congrArg _ (requestRow_operation_quiet hs hq ha hx hu (heard_reports.trans hs.2.1))
    · exact congrArg _ (requestRow_operation hs hq ha hx ((matched hm).trans (if_pos hn)))
    · exact congrArg _ (requestRow_operation hs hq ha hx (held hm))
  · intro u o st ho hst c new opens clamped two
    have hopen : opens ↔ st.opening = true := opening_iff.symm
    refine ⟨fun h1 h2 => beginStage_of_gainWait ho (hopen.1 h1) h2, fun hn g hg1 hg2 => ?_⟩
    have hg : g = guardOf o.op st := by
      rw [guardOf]
      split
      · next hc => exact hg1 ((selectsClamp_iff hst).1 hc)
      · next hc => exact hg2 (mt (selectsClamp_iff hst).2 hc)
    have hno : ¬(st.opening = true ∧ u.cm.gainLatch ≠ none) := by rwa [← hopen]
    intro m w
    have hw : w = u.stageBegun (o.begunAt st) (guardOf o.op st) := by
      simp only [w, m, hg]
      rfl
    have hmm : m = u.mismOn (guardOf o.op st) := by
      simp only [m, hg]
      rfl
    refine ⟨fun hm => ?_, fun hm => ?_⟩
    · show beginStage st u = _
      rw [beginStage_of_mismatch ho hno (hmm ▸ hm), ← hw, ← hmm, holdOp_of_op (o := o.begunAt st) rfl]
      rfl
    · have hc : c = startStage (o.begunAt st) w := by
        rw [hw]
        exact beginStage_of_match ho hno (hmm ▸ hm)
      rw [hc]
      intro run moves
      refine ⟨?_, ?_, ?_, ?_, ?_, ?_, ?_, ?_, fun hwait => ?_⟩
      · rintro rfl; rfl
      · rintro rfl; rfl
      · rintro (rfl | rfl) <;> rfl
      · rintro rfl; rfl
      · rintro rfl hop
        exact startStage_of_addRod_ret rfl hop
      · rintro rfl hop
        exact startStage_of_removeRod_ret rfl hop
      · rintro rfl; rfl
      · rintro rfl; rfl
      · intro v off met x
        have hmet : conditionMet ((o.begunAt st).figured v) (v.stageWaits (o.begunAt st)) = true ↔ met :=
          conditionMet_figured_iff hwait o v
        have e := startStage_of_met (s := w) (o := o.begunAt st) hwait rfl
        exact ⟨fun h => e.trans (if_pos (hmet.2 h)), fun h => e.trans (if_neg (mt hmet.1 h))⟩

end Sys2Proof.Machine
end

section
/-! PROOFS. Hydraulic arbiter: every step keeps its order (R63, R65, R66, R68). -/

namespace Sys2Proof.Machine

/-! ## The owners of the requests

Most of them change no request for a motion; what the others do ends in operations that Keeps and Stays
speak of. -/

section
variable {s : State} (h : s.ahaOk)
include h

theorem afterStore_ahaOk {n : Nat} {old new : Int} : (afterStore n old new s).ahaOk := by
  fun_cases afterStore with
  | case1 => exact (deliverLength_keeps (.refl s)).aha h
  | case2 => exact (testAllLimits_keeps (.refl s)).aha h
  | case3 => exact h

theorem ownHeadPreset_ahaOk {v : Int} : (ownHeadPreset v s).1.ahaOk := by
  fun_cases ownHeadPreset with
  | case1 => exact h
  | case2 => exact (settle_keeps (hsHead_keeps (dibEncoder_keeps (.refl _)))).aha h

theorem ownIndexPreset_ahaOk {v : Int} : (ownIndexPreset v s).1.ahaOk := by
  fun_cases ownIndexPreset <;> exact h

theorem ownDepthOffset_ahaOk {v : Int} : (ownDepthOffset v s).1.ahaOk := by
  fun_cases ownDepthOffset with
  | case1 => exact (recompute_keeps (.refl _)).aha h
  | case2 => exact h

theorem ownSetParameter_ahaOk {n : Nat} {v : Int} : (ownSetParameter n v s).1.ahaOk := by
  fun_cases ownSetParameter with
  | case1 => exact h
  | case2 => exact ownHeadPreset_ahaOk h
  | case3 => exact ownIndexPreset_ahaOk h
  | case4 => exact ownDepthOffset_ahaOk h
  | case5 => exact afterStore_ahaOk (s := s.storeParam ..) h

theorem ownSetPump_ahaOk {pump : Byte} {d e : Nat} : (ownSetPump pump d e s).1.ahaOk := by
  fun_cases ownSetPump <;> exact h

theorem ownAckNotices_ahaOk {kinds : KindSet} : (ownAckNotices kinds s).1.ahaOk := by
  fun_cases ownAckNotices with
  | case1 t u =>
    show (if _ then _ else _ : State).ahaOk
    split
    · exact (clearGroupFlag_keeps (.refl t)).aha h
    · exact h

theorem ownClearAll_ahaOk : (ownClearAll s).1.ahaOk := by
  fun_cases ownClearAll <;> exact h

theorem ownSetClock_ahaOk {second : Nat} : (ownSetClock second s).1.ahaOk := by
  fun_cases ownSetClock <;> exact h

theorem ownSetWatch_ahaOk {sel pat : SwitchSet} : (ownSetWatch sel pat s).1.ahaOk := by
  have k : (writeGroup .g3 sel pat s).1.ahaOk := (writeGroup_fst (.refl s)).aha h
  show (if _ then _ else _ : State).ahaOk
  split <;> exact k

theorem ownDeclareAddition_ahaOk {v : Int} : (ownDeclareAddition v s).1.ahaOk := by
  fun_cases ownDeclareAddition with
  | case1 | case2 => exact h
  | case3 => exact (declareVolume_keeps (.refl s)).aha h

theorem ownReadBalance_ahaOk {part : Nat} : (ownReadBalance part s).1.ahaOk := by
  fun_cases ownReadBalance <;> exact h

theorem ownAcceptLatch_ahaOk {code : Byte} : (ownAcceptLatch code s).1.ahaOk := by
  have k {l : LatchName} : (settle (clearLatch l .accepted s)).ahaOk :=
    (settle_keeps (clearLatch_keeps (.refl s))).aha h
  fun_cases ownAcceptLatch with
  | case1 | case4 => exact h
  | case2 | case3 => exact k

theorem ownEnterWatch_ahaOk : (ownEnterWatch s).1.ahaOk := by
  fun_cases ownEnterWatch with
  | case1 | case3 => exact h
  | case2 => exact (settle_keeps (enterWatch_keeps (.refl s))).aha h

theorem ownLeaveWatch_ahaOk : (ownLeaveWatch s).1.ahaOk := by
  fun_cases ownLeaveWatch with
  | case1 => exact (settle_keeps (leaveWatch_keeps (.refl s))).aha h
  | case2 => exact h

theorem ownRegisterRod_ahaOk {x : Serial} {len cls : Nat} : (ownRegisterRod x len cls s).1.ahaOk := by
  fun_cases ownRegisterRod <;> exact h

theorem ownRetireRod_ahaOk {x : Serial} : (ownRetireRod x s).1.ahaOk := by
  fun_cases ownRetireRod <;> exact h

theorem ownLoadSlot_ahaOk {x : Serial} {named : Option Nat} : (ownLoadSlot x named s).1.ahaOk := by
  fun_cases ownLoadSlot with
  | case1 | case2 | case3 | case4 | case5 => exact h
  | case6 => exact (beginLoader_keeps ..).aha h

theorem ownUnloadSlot_ahaOk {n : Nat} : (ownUnloadSlot n s).1.ahaOk := by
  fun_cases ownUnloadSlot with
  | case1 | case2 | case3 | case4 => exact h
  | case5 => exact (beginLoader_keeps ..).aha h

theorem armEmptied_ahaOk : (armEmptied s).ahaOk :=
  (settle_keeps (setDepthHold_keeps (.refl s))).aha h

theorem ownPlaceRod_ahaOk {d : Byte} : (ownPlaceRod d s).1.ahaOk := by
  fun_cases ownPlaceRod with
  | case4 | case9 => exact armEmptied_ahaOk (s := s.setRrc _) h
  | case7 => exact armEmptied_ahaOk ((deliverLength_keeps (.refl (s.setRrc _))).aha h)
  | case1 | case2 | case3 | case5 | case6 | case8 => exact h

/-- An operation, or a trip's first one, starts on its reserved slot. -/
theorem startReply_ahaOk {op : Op} {slot rod : Nat} {trip : Bool} :
    (startReply op slot rod trip s).1.ahaOk :=
  (settle_keeps (startOp_keeps (.refl (s.setRrc _)))).aha h

theorem takeOperation_ahaOk {op : Op} {named : Option Nat} : (takeOperation op named s).1.ahaOk := by
  fun_cases takeOperation with
  | case1 | case2 | case3 => exact h
  | case4 => exact startReply_ahaOk h

theorem ownStartTrip_ahaOk {d : Byte} {n : Nat} : (ownStartTrip d n s).1.ahaOk := by
  fun_cases ownStartTrip with
  | case1 | case2 | case3 | case4 | case5 => exact h
  | case6 =>
    have k {x : Hs} : (s.setHs x).ahaOk := h
    exact startReply_ahaOk k

theorem ownStopTrip_ahaOk : (ownStopTrip s).1.ahaOk := by
  fun_cases ownStopTrip with
  | case1 | case3 => exact h
  | case2 => exact (endTrip_keeps (.refl s)).aha h

theorem ownResume_ahaOk : (ownResume s).1.ahaOk := by
  fun_cases ownResume with
  | case1 => exact (settle_keeps (resumeOp_keeps (.refl s))).aha h
  | case3 => exact (settle_keeps (tripNext_keeps (clearStopFlags_keeps (.refl s)))).aha h
  | case2 | case4 => exact h

theorem ownAbort_ahaOk : (ownAbort s).1.ahaOk := by
  fun_cases ownAbort with
  | case1 => exact h
  | case2 => exact (settle_keeps (abortOp_keeps (.refl s))).aha h
  | case3 => exact (endTrip_keeps (.refl s)).aha h

theorem ownManualMove_ahaOk {fn d : Byte} {ms : Nat} : (ownManualMove fn d ms s).1.ahaOk := by
  fun_cases ownManualMove with
  | case5 => exact (settle_keeps (requestMotion_keeps (.refl s))).aha h
  | case1 | case2 | case3 | case4 | case6 => exact h

theorem ownDiverter_ahaOk {d : Byte} : (ownDiverter d s).1.ahaOk := by
  fun_cases ownDiverter with
  | case1 | case2 | case3 => exact h
  | case4 => exact (settle_keeps (requestMotion_keeps (.refl s))).aha h

theorem ownMarkInterval_ahaOk : (ownMarkInterval s).1.ahaOk := by
  fun_cases ownMarkInterval with
  | case6 => exact (closeAtMark_keeps (by assumption) (.refl s)).aha h
  | case1 | case2 | case3 | case4 | case5 => exact h

theorem ownAnnotate_ahaOk {number : Nat} {n : Note} : (ownAnnotate number n s).1.ahaOk := by
  fun_cases ownAnnotate with
  | case4 => exact (testHead_keeps (.refl (s.setDib _))).aha h
  | case1 | case2 | case3 | case5 | case6 => exact h

theorem ownReadIntervals_ahaOk {n : Nat} : (ownReadIntervals n s).1.ahaOk := by
  fun_cases ownReadIntervals <;> exact h

theorem ownWriteTariff_ahaOk {t : Tariff} : (ownWriteTariff t s).1.ahaOk := by
  fun_cases ownWriteTariff <;> exact h

theorem openJob_ahaOk {job id : Nat} {start : Option Nat} {t : Tariff} :
    (openJob job id start t s).ahaOk := by
  have k {x : Bu} : (dibOpenJob job start (s.setBu x)).ahaOk :=
    (testHwm_keeps (openInterval_keeps (.setDib (testHead_keeps (.refl _))))).aha h
  exact (joinOutbox_keeps (.refl (State.setBu _ _))).aha k

theorem ownOpenJob_ahaOk {job id : Nat} {start : Option Nat} : (ownOpenJob job id start s).1.ahaOk := by
  fun_cases ownOpenJob with
  | case8 => exact openJob_ahaOk h
  | case1 | case2 | case3 | case4 | case5 | case6 | case7 => exact h

theorem ownHoldJob_ahaOk : (ownHoldJob s).1.ahaOk := by
  fun_cases ownHoldJob <;> exact h

theorem ownReleaseJob_ahaOk : (ownReleaseJob s).1.ahaOk := by
  fun_cases ownReleaseJob <;> exact h

theorem ownDeclareBreakdown_ahaOk : (ownDeclareBreakdown s).1.ahaOk := by
  fun_cases ownDeclareBreakdown <;> exact h

theorem ownEndBreakdown_ahaOk : (ownEndBreakdown s).1.ahaOk := by
  fun_cases ownEndBreakdown <;> exact h

theorem ownAddMaterial_ahaOk {item qty : Nat} : (ownAddMaterial item qty s).1.ahaOk := by
  fun_cases ownAddMaterial <;> exact h

theorem ownIssueTicket_ahaOk : (ownIssueTicket s).1.ahaOk := by
  fun_cases ownIssueTicket with
  | case1 | case2 | case3 => exact h
  | case4 => exact (buildTicket_stays (.refl s)).aha h

theorem dibCloseJob_ahaOk {t : State} (e : dibCloseJob s = some t) : t.ahaOk := by
  unfold dibCloseJob at e
  split at e
  · cases e; exact h
  · split at e
    · exact (closeAtMark_keeps e (.refl s)).aha h
    · cases e; exact h

theorem ownCloseJob_ahaOk : (ownCloseJob s).1.ahaOk := by
  have k {t : State} (e : dibCloseJob s = some t) : (testFinal (enterClosing t)).ahaOk :=
    (testFinal_stays (.refl (enterClosing t))).aha (show t.ahaOk from dibCloseJob_ahaOk h e)
  fun_cases ownCloseJob with
  | case1 | case2 | case3 => exact h
  | case4 | case5 => exact k ‹_›

theorem ownCollectTicket_ahaOk {n : Nat} : (ownCollectTicket n s).1.ahaOk := by
  fun_cases ownCollectTicket with
  | case1 | case2 | case3 => exact h
  | case4 => exact (testFinal_stays (.refl (s.setBu _))).aha h

theorem ownReadAccruals_ahaOk {p : Nat} : (ownReadAccruals p s).1.ahaOk := by
  fun_cases ownReadAccruals <;> exact h

/-- Every owner keeps the arbiter's order; a read changes nothing. -/
theorem own_ahaOk (r : Request) : (own r s).1.ahaOk := by
  cases r with
  | setParameter => exact ownSetParameter_ahaOk h
  | setPump => exact ownSetPump_ahaOk h
  | ackNotices => exact ownAckNotices_ahaOk h
  | clearAll => exact ownClearAll_ahaOk h
  | setClock => exact ownSetClock_ahaOk h
  | setWatch => exact ownSetWatch_ahaOk h
  | declareAddition => exact ownDeclareAddition_ahaOk h
  | readBalance => exact ownReadBalance_ahaOk h
  | acceptLatch => exact ownAcceptLatch_ahaOk h
  | enterHoleWatch => exact ownEnterWatch_ahaOk h
  | leaveHoleWatch => exact ownLeaveWatch_ahaOk h
  | registerRod => exact ownRegisterRod_ahaOk h
  | retireRod => exact ownRetireRod_ahaOk h
  | loadSlot => exact ownLoadSlot_ahaOk h
  | unloadSlot => exact ownUnloadSlot_ahaOk h
  | placeRod => exact ownPlaceRod_ahaOk h
  | addRod | removeRod => exact takeOperation_ahaOk h
  | startTrip => exact ownStartTrip_ahaOk h
  | stopTrip => exact ownStopTrip_ahaOk h
  | resume => exact ownResume_ahaOk h
  | abort => exact ownAbort_ahaOk h
  | manualMove => exact ownManualMove_ahaOk h
  | diverter => exact ownDiverter_ahaOk h
  | markInterval => exact ownMarkInterval_ahaOk h
  | annotate => exact ownAnnotate_ahaOk h
  | readIntervals => exact ownReadIntervals_ahaOk h
  | writeTariff => exact ownWriteTariff_ahaOk h
  | openJob => exact ownOpenJob_ahaOk h
  | holdJob => exact ownHoldJob_ahaOk h
  | releaseJob => exact ownReleaseJob_ahaOk h
  | declareBreakdown => exact ownDeclareBreakdown_ahaOk h
  | endBreakdown => exact ownEndBreakdown_ahaOk h
  | addMaterial => exact ownAddMaterial_ahaOk h
  | issueTicket => exact ownIssueTicket_ahaOk h
  | closeJob => exact ownCloseJob_ahaOk h
  | collectTicket => exact ownCollectTicket_ahaOk h
  | readAccruals => exact ownReadAccruals_ahaOk h
  | setReturnMeter | setNoticeMask | identify | getParameter | readSignals | readTally | readLog
  | readTariff | readTicket => exact h

/-! ## The link -/

theorem deal_ahaOk (r : Request) : (deal r s).1.ahaOk := by
  fun_cases deal with
  | case1 | case2 => exact h
  | case3 => exact own_ahaOk h r

theorem answer_ahaOk {kind : Byte} {res : Except Reason Request} : (answer kind res s).1.ahaOk := by
  fun_cases answer with
  | case1 | case2 => exact h
  | case3 => exact deal_ahaOk h _

theorem serve_ahaOk {kind tag : Byte} {res : Except Reason Request} : (serve kind tag res s).ahaOk :=
  answer_ahaOk h

theorem arrives_ahaOk {f : Frame} {res : Except Reason Request} : (arrives f res s).ahaOk := by
  fun_cases arrives with
  | case1 t => exact serve_ahaOk (s := t) h
  | case2 | case3 => exact h

theorem takeWaiting_ahaOk : (takeWaiting s).ahaOk := by
  fun_cases takeWaiting with
  | case2 _ f rest => exact serve_ahaOk (s := s.setLc { s.lc with rx := rest }) h
  | case1 | case3 => exact h

omit h in
/-- A cold start leaves the arbiter empty (R75, R194). -/
theorem coldStart_ahaOk : (coldStart s).ahaOk := rfl

theorem transmitted_ahaOk : (transmitted s).ahaOk := by
  fun_cases transmitted with
  | case1 => exact h
  | case2 => exact coldStart_ahaOk
  | case3 _ _ t | case5 _ _ t => exact takeWaiting_ahaOk (s := t) h
  | case4 => exact h

theorem lockOn_ahaOk {f : Frame} : (lockOn f s).ahaOk := by
  fun_cases lockOn with
  | case1 t => exact arrives_ahaOk (s := t) h

theorem firstByte_ahaOk {b : Byte} {bad : Bool} : (firstByte b bad s).ahaOk := by
  fun_cases firstByte <;> exact h

theorem huntByte_ahaOk {b : Byte} {bad : Bool} : (huntByte b bad s).ahaOk := by
  unfold huntByte
  split
  · exact h
  · fun_cases huntTake with
    | case1 => exact firstByte_ahaOk h
    | case2 => exact firstByte_ahaOk (s := nextTrial s) h
    | case6 => exact lockOn_ahaOk h
    | case3 | case4 | case5 => exact h

theorem frameIn_ahaOk {f : Frame} {res : Except Reason Request} : (frameIn f res s).ahaOk := by
  fun_cases frameIn with
  | case1 => exact arrives_ahaOk h
  | case2 => exact List.foldlRecOn f.bytes _ h fun _ hu _ _ => huntByte_ahaOk hu

theorem rehunt_ahaOk : (rehunt s).ahaOk := by
  fun_cases rehunt with
  | case1 => exact coldStart_ahaOk
  | case2 => exact h

/-! ## Power -/

omit h in
/-- A warm recovery begins with the arbiter empty (R75). -/
theorem warmStart_ahaOk : (warmStart s).ahaOk := by
  have k {u : State} (hu : u.aha = .reset) : (recoverStart u).ahaOk :=
    (recoverStart_keeps (.refl u)).aha (by rw [State.ahaOk, hu]; rfl)
  fun_cases warmStart with
  | case1 => exact (storeReady_stays (.refl _)).aha (k rfl)
  | case2 => exact k rfl

omit h in
theorem powerReturns_ahaOk {secs : Nat} {good : Bool} : (powerReturns secs good s).ahaOk := by
  fun_cases powerReturns with
  | case1 => exact warmStart_ahaOk
  | case2 => exact coldStart_ahaOk

omit h in
/-- The warning leaves the arbiter empty (R75). -/
theorem powerFails_ahaOk : (powerFails s).ahaOk := rfl

/-! ## The rows -/

theorem State.elapse_ahaOk {dt : Nat} : (s.elapse dt).ahaOk := by
  unfold State.elapse
  split
  · exact h
  · exact elapse_ok dt h

theorem whenOn_ahaOk {dt : Nat} {f : State → State} (hf : ∀ {u : State}, u.ahaOk → (f u).ahaOk) :
    (whenOn dt s f).ahaOk := by
  unfold whenOn
  split
  · exact h
  · exact hf (State.elapse_ahaOk h)

theorem event_ahaOk {dt : Nat} {f : State → State} (hf : ∀ {u : State}, u.ahaOk → (f u).ahaOk) :
    (event dt f s).ahaOk :=
  whenOn_ahaOk h fun hu => (finish_stays (.refl _)).aha (hf hu)

theorem requestRow_ahaOk {dt : Nat} {tag : Byte} {r : Request} : (requestRow dt tag r s).ahaOk :=
  whenOn_ahaOk h fun hu => (finish_stays (.refl _)).aha (frameIn_ahaOk hu)

/-- An event of the rig, the timers or the store that `Stays` speaks of. -/
theorem event_ahaOk_of_stays {dt : Nat} {f : State → State} (hf : ∀ u, Stays u (f u)) :
    (event dt f s).ahaOk :=
  event_ahaOk h (hf _).aha

/-- One that acts only when it is due (log 9). -/
theorem dueEvent_ahaOk {dt : Nat} {p : State → Prop} [DecidablePred p] {f : State → State}
    (hf : ∀ u, Stays u (f u)) : (event dt (fun u => if p u then f u else u) s).ahaOk :=
  event_ahaOk_of_stays h fun u => .ite (hf u) (.refl u)

theorem frameRow_ahaOk {dt : Nat} {f : Frame} : (frameRow dt f s).ahaOk := by
  refine whenOn_ahaOk h fun hu => (finish_stays (.refl _)).aha ?_
  split
  · exact frameIn_ahaOk hu
  · exact hu

end

/-- A request row is its request's (R202). -/
theorem exec_of_request {c : Instr} {dt : Nat} {tag : Byte} {r : Request} {s : State}
    (h : c.request = some (dt, tag, r)) : exec c s = .next (requestRow dt tag r s) := by
  cases c <;> cases h <;> rfl

/-- Every command keeps the arbiter's order: a request by its owner, an event by what it does. -/
theorem exec_ahaOk {s : State} (c : Instr) (h : s.ahaOk) : ∃ t, exec c s = .next t ∧ t.ahaOk := by
  cases hr : c.request with
  | some x =>
    obtain ⟨dt, tag, r⟩ := x
    exact ⟨_, exec_of_request hr, requestRow_ahaOk h⟩
  | none =>
    cases c with
    | unknownKindRequest => exact ⟨_, rfl, frameRow_ahaOk h⟩
    | frameReceived => exact ⟨_, rfl, frameRow_ahaOk h⟩
    | huntByte => exact ⟨_, rfl, event_ahaOk h fun hu => huntByte_ahaOk hu⟩
    | interByteTimeout => exact ⟨_, rfl, event_ahaOk h fun hu => by split <;> exact hu⟩
    | silenceTimerExpiry =>
      refine ⟨_, rfl, event_ahaOk h fun hu => ?_⟩
      split
      · exact rehunt_ahaOk hu
      · exact hu
    | transmitComplete => exact ⟨_, rfl, event_ahaOk h transmitted_ahaOk⟩
    | frameDropped => exact ⟨_, rfl, event_ahaOk h id⟩
    | switchRawChange =>
      refine ⟨_, rfl, ?_⟩
      split
      · exact h
      · exact event_ahaOk h id
    | switchChangeTaken => exact ⟨_, rfl, dueEvent_ahaOk h fun u => takeChange_stays (.refl u)⟩
    | acquisitionEnd => exact ⟨_, rfl, dueEvent_ahaOk h fun u => acquisitionOver_stays (.refl u)⟩
    | strokePulse => exact ⟨_, rfl, event_ahaOk_of_stays h fun u => takeStroke_stays (.refl u)⟩
    | returnMeterPulse => exact ⟨_, rfl, event_ahaOk_of_stays h fun u => takeReturn_stays (.refl u)⟩
    | rotationPulse => exact ⟨_, rfl, event_ahaOk_of_stays h fun u => takeRotation_stays (.refl u)⟩
    | headEncoderStep => exact ⟨_, rfl, event_ahaOk_of_stays h fun u => takeEncoder_stays (.refl u)⟩
    | rotatingIndicationExpiry => exact ⟨_, rfl, event_ahaOk h fun hu => by split <;> exact hu⟩
    | analogueSample => exact ⟨_, rfl, dueEvent_ahaOk h fun u => takeSample_stays (.refl u)⟩
    | pumpGapTimerExpiry => exact ⟨_, rfl, dueEvent_ahaOk h fun u => (cmPumpStopped_keeps (.refl u)).stays⟩
    | secondTick =>
      refine ⟨_, rfl, ?_⟩
      split
      · exact h
      · exact event_ahaOk_of_stays h fun u => takeSecond_stays (.refl u)
    | windowClose => exact ⟨_, rfl, dueEvent_ahaOk h fun u => (closeWindow_keeps (.refl u)).stays⟩
    | flowCheckTimerExpiry => exact ⟨_, rfl, dueEvent_ahaOk h fun u => passCheck_stays (.refl u)⟩
    | captureTimerExpiry => exact ⟨_, rfl, dueEvent_ahaOk h fun u => (endCapture_keeps (.refl u)).stays⟩
    | motionTimeout => exact ⟨_, rfl, event_ahaOk h (ahaTimeout_keeps (.refl _)).aha⟩
    | stallTimerExpiry => exact ⟨_, rfl, dueEvent_ahaOk h fun u => stallOver_stays (.refl u)⟩
    | graceExpiry => exact ⟨_, rfl, event_ahaOk_of_stays h fun u => graceOver_stays (.refl u)⟩
    | eraseComplete =>
      refine ⟨_, rfl, event_ahaOk h fun hu => ?_⟩
      split
      · exact (eraseOver_stays (.refl _)).aha hu
      · exact hu
    | blockProgramComplete => exact ⟨_, rfl, dueEvent_ahaOk h fun u => blockOver_stays (.refl u)⟩
    | voidComplete =>
      refine ⟨_, rfl, event_ahaOk h fun hu => ?_⟩
      split
      · exact (Stays.ite (voidOver_stays (.refl _)) (.refl _)).aha hu
      · exact hu
    | verifyBlockRead => exact ⟨_, rfl, dueEvent_ahaOk h fun u => verifyOver_stays (.refl u)⟩
    | coldStartScanEnd => exact ⟨_, rfl, dueEvent_ahaOk h fun u => scanOver_stays (.refl u)⟩
    | powerFailWarning => exact ⟨_, rfl, whenOn_ahaOk h fun _ => powerFails_ahaOk⟩
    | powerUp =>
      refine ⟨_, rfl, ?_⟩
      split
      · exact powerReturns_ahaOk
      · exact h
    | _ => cases hr

/-- Settles O6: a step is its command's, and an empty queue idles. -/
theorem everyStepKeepsTheArbiterOrder : Obligations.EveryStepKeepsTheArbiterOrder := by
  intro s t h e
  unfold step at e
  split at e
  · cases e; exact h
  · next c rest _ =>
    obtain ⟨u, hu, ok⟩ := exec_ahaOk (s := s.setPending rest) c h
    cases hu.symm.trans e
    exact ok

end Sys2Proof.Machine
end

section
/-! PROOFS. Hydraulic arbiter: how a motion is requested, granted, suspended, passed on and withdrawn. -/

namespace Sys2Proof.Machine

/-! ## The grant (R66, R71, R72) -/

section
variable {q : Req} {u : State}

theorem targetMet_of_slot {n : Nat} (h : q.target = .slot n) :
    targetMet u q = true ↔ u.rrc.index = n ∧ u.on .indexLocked = true := by
  simp [targetMet, h]

theorem targetMet_of_switch {sw : Switch} (h : q.target = .switch sw ∨ q.target = .jog (some sw)) :
    targetMet u q = u.on sw := by
  rcases h with h | h <;> rw [targetMet, h]

/-- The report of a grant, as its remaining time shows whether it is the first (R63, R66). -/
theorem grantReport_eq : q.grantReport = if q.left = none then .granted q else .resumed q := by
  unfold Req.grantReport
  cases q.left <;> rfl

theorem tryGrant_of_met (hm : targetMet u q = true) :
    tryGrant q u = (u.report (.complete q q.metEnd), false) := if_pos hm

variable (hm : targetMet u q = false)
include hm

theorem tryGrant_of_valve (hf : q.fn ≠ .index) :
    tryGrant q u = (driveValve q (u.report q.grantReport), true) :=
  (if_neg (by simp [hm])).trans (if_neg hf)

variable (hf : q.fn = .index)
include hf

theorem tryGrant_of_index : tryGrant q u =
    if (armGuard u).2 then (guardFailed q (armGuard u).1, false)
    else if (armGuard u).1.on .indexLocked then
      (driveIndex q ((armGuard u).1.report q.grantReport), true)
    else (awaitLock q ((armGuard u).1.report q.grantReport), true) :=
  (if_neg (by simp [hm])).trans (if_pos hf)

theorem tryGrant_of_mismatch (hg : u.guardMism ≠ 0) : tryGrant q u =
    ((u.setSfe { u.sfe with g1 := ⟨0, 0, 0, true⟩ }).report (.failed q .guard u.guardMism), false) := by
  rw [tryGrant_of_index hm hf, armGuard_of_mismatch hg, if_pos rfl, guardFailed, disarmGroup_eq]
  rfl

/-- An index motion's grant behind its guard: it waits for INDEX LOCKED, or is driven (R71). -/
theorem tryGrant_of_match (hg : u.guardMism = 0) : tryGrant q u =
    let armed := (u.report q.grantReport).setSfe
      { u.sfe with g1 := ⟨guardSet, guardSet, 0, u.sfe.g1.flag⟩ }
    (if u.on .indexLocked then driveIndex q armed else awaitLock q armed, true) := by
  rw [tryGrant_of_index hm hf, armGuard_of_match hg, if_neg Bool.false_ne_true]
  show (if u.on .indexLocked then _ else _) = _
  cases u.on .indexLocked <;> rfl

end

/-- An index motion driven, its timeout by its target and its client (R64, R71, R73). -/
theorem driveIndex_eq {q : Req} (hf : q.fn = .index) (u : State) : driveIndex q u =
    let route : StepDir × Nat := match q.target with
      | .slot n => routeTo u.rrc.index n
      | _ => (q.dir.step, 1)
    let full := match q.target with | .jog _ => q.jogMs | _ => 4000 + 2000 * route.2
    (u.setAha
      { u.aha with
        holder := some
          { q with
            dir := route.1.dir, route := some route, ownStep := true, lockWait := none
            left := some (if q.client = .loader then full else q.saved.getD full) }
        valve := some (.index, route.1.dir) }).setRrc { u.rrc with stepDir := route.1 } := by
  cases ht : q.target <;> simp only [driveIndex, Req.timeout, hf, ht] <;> rfl

/-! ## The grant passes on (R68) -/

section
variable {n : Nat} {u v : State}

theorem passOn_of_none (hs : u.aha.stack = []) (hw : u.aha.waiting = []) : passOn n u = u := by
  cases n with
  | zero => rfl
  | succ n => simp only [passOn, Aha.nextCandidate, hs, hw]

/-- The candidate is the stack's top, or the first that waits where it ranks above that. -/
theorem nextCandidate_eq {a : Aha} {c : Req} {stack waiting : List Req}
    (h : (a.stack = c :: stack ∧ a.waiting = waiting
        ∧ ∀ w ∈ waiting.head?, c.client.rank < w.client.rank)
      ∨ (a.waiting = c :: waiting ∧ a.stack = stack
        ∧ ∀ t ∈ stack.head?, c.client.rank ≤ t.client.rank)) :
    a.nextCandidate = some (c, { a with stack := stack, waiting := waiting }) := by
  obtain ⟨holder, st, wt, valve⟩ := a
  rcases h with ⟨rfl, rfl, h⟩ | ⟨rfl, rfl, h⟩
  · cases wt with
    | nil => rfl
    | cons w ws => exact if_pos (h w rfl)
  · cases st with
    | nil => rfl
    | cons t ts => exact if_neg (Nat.not_lt.2 (h t rfl))

section
variable {c : Req} {a : Aha} (h : u.aha.nextCandidate = some (c, a))
include h

theorem passOn_of_held (e : tryGrant c (u.setAha a) = (v, true)) : passOn (n + 1) u = v := by
  rw [passOn, h]
  simp only [e]
  rfl

theorem passOn_of_ended (e : tryGrant c (u.setAha a) = (v, false)) :
    passOn (n + 1) u = passOn n v := by
  rw [passOn, h]
  simp only [e]
  rfl

end

/-! ## The holder stops, or is suspended (R65, R67, R70) -/

variable {held : Req} (h : u.aha.holder = some held)
include h

theorem stopHolder_of_holder : stopHolder u =
    (if held.fn = .index then u.setSfe { u.sfe with g1 := ⟨0, 0, 0, u.sfe.g1.flag⟩ } else u).setAha
      { u.aha with holder := none, valve := none } := by
  rw [stopHolder, h]
  by_cases hf : held.fn = .index
  · simp only [hf, if_true, disarmGroup_eq]; rfl
  · simp only [hf, if_false]

theorem suspendHolder_of_holder : suspendHolder held u =
    ((if held.fn = .index then u.setSfe { u.sfe with g1 := ⟨0, 0, 0, u.sfe.g1.flag⟩ } else u).setAha
      ⟨none, held.suspended u.rrc.stepMark :: u.aha.stack, u.aha.waiting, none⟩).report
        (.suspended (held.suspended u.rrc.stepMark)) := by
  rw [suspendHolder, stopHolder_of_holder h]
  rfl

theorem withdraw_of_holder : withdraw held.client u = passOn 4 (stopHolder u) :=
  if_pos (holds_iff.2 ⟨held, h, rfl⟩)

end

theorem withdraw_of_other {c : Client} {u : State}
    (h : ∀ held, u.aha.holder = some held → held.client ≠ c) : withdraw c u = u.setAha
      { u.aha with
        stack := u.aha.stack.filter (fun q => q.client != c)
        waiting := u.aha.waiting.filter (fun q => q.client != c) } :=
  if_neg fun hc => by
    obtain ⟨held, hh, e⟩ := holds_iff.1 hc
    exact h held hh e

/-! ## A request arrives (R63 to R65) -/

section
variable {q : Req} {u v : State}

theorem grantNow_of_held (e : tryGrant q u = (v, true)) : grantNow q u = v := by
  rw [grantNow, e]
  rfl

theorem grantNow_of_ended (e : tryGrant q u = (v, false)) : grantNow q u = passOn 4 v := by
  rw [grantNow, e]
  rfl

theorem stands_eq_false {a : Aha} {c : Client} : a.stands c = false ↔ ∀ x ∈ a.standing, x.client ≠ c := by
  simp [Aha.stands]

variable (hs : u.aha.stands q.client = false)
include hs

theorem requestMotion_of_met (hm : targetMet u q = true) :
    requestMotion q u = u.report (.complete q q.metEnd) :=
  (if_neg (by simp [hs])).trans (if_pos hm)

variable (hm : targetMet u q = false)
include hm

theorem requestMotion_of_free (hh : u.aha.holder = none) : requestMotion q u = grantNow q u := by
  rw [requestMotion, if_neg (by simp [hs]), if_neg (by simp [hm]), hh]

theorem requestMotion_of_below {held : Req} (hh : u.aha.holder = some held)
    (hr : held.client.rank ≤ q.client.rank) :
    requestMotion q u = u.setAha { u.aha with waiting := insertWaiting q u.aha.waiting } := by
  rw [requestMotion, if_neg (by simp [hs]), if_neg (by simp [hm]), hh]
  exact if_neg (Nat.not_lt.2 hr)

theorem requestMotion_of_above {held : Req} (hh : u.aha.holder = some held)
    (hr : q.client.rank < held.client.rank) :
    requestMotion q u = grantNow q (suspendHolder held u) := by
  rw [requestMotion, if_neg (by simp [hs]), if_neg (by simp [hm]), hh]
  exact if_pos hr

end

/-! ## Reports on which no client acts (R63; log 7) -/

theorem settleWith_of_silent {n : Nat} {l : List Report} (hl : ∀ r ∈ l, ∀ u, takeReport r u = u)
    (hn : l.length ≤ n) {s : State} (e : s.reports = l) : settleWith n s = s.setReports [] := by
  induction l generalizing n s with
  | nil =>
    have hs : s.setReports [] = s := by rw [← e]; rfl
    rw [hs]
    cases n with
    | zero => rfl
    | succ n => rw [settleWith, e]
  | cons r l ih =>
    obtain ⟨n, rfl⟩ : ∃ m, n = m + 1 := ⟨n - 1, by simp at hn; omega⟩
    rw [settleWith, e]
    simp only [hl r (List.mem_cons_self ..)]
    exact ih (fun x hx => hl x (List.mem_cons_of_mem _ hx)) (by simpa using hn) rfl

/-- A grant, and the suspension before it, are taken with no more. -/
theorem settle_granted {s : State} {q : Req} (h : s.reports = []) : settle (s.report (.granted q)) = s :=
  settle_report h h

theorem settle_suspended_granted {s : State} {q r : Req} (h : s.reports = []) :
    settle ((s.report (.suspended r)).report (.granted q)) = s := by
  refine (settleWith_of_silent (l := [.suspended r, .granted q]) (by simp [takeReport])
    (by simp [Config.settleFuel])
    (by simp [h])).trans ?_
  show s.setReports [] = s
  rw [← h]
  rfl

/-! ## MANUAL MOVE and DIVERTER (R73, R74) -/

section
variable {s : State}

theorem jogMet_iff {fn : Func} {dir : Dir} : jogMet fn dir s = true ↔
    ∃ sw, endSwitch fn dir = some sw ∧ s.on sw = true := by
  unfold jogMet
  cases endSwitch fn dir <;> simp

theorem targetMet_jogReq (fn : Func) (dir : Dir) (ms : Nat) :
    targetMet s (jogReq fn dir ms) = jogMet fn dir s := by
  unfold jogReq jogMet targetMet
  cases endSwitch fn dir <;> rfl

theorem targetMet_divertReq (dir : Dir) (a b : Bool) :
    targetMet s (divertReq dir a b) = jogMet .diverter dir s := by
  cases dir <;> rfl

section
variable {f d : Byte} {ms : Nat}

theorem ownManualMove_of_busy (h : s.hs.seq = .running ∨ s.hs.seq = .waiting) :
    ownManualMove f d ms s = refused .state s := if_pos h

variable (h : ¬(s.hs.seq = .running ∨ s.hs.seq = .waiting))
include h

theorem ownManualMove_of_stands (hm : s.aha.stands .manual = true) :
    ownManualMove f d ms s = refused .busy s := (if_neg h).trans (if_pos hm)

variable (hm : s.aha.stands .manual = false)
include hm

theorem ownManualMove_of_out
    (ho : Func.ofCode f = none ∨ Dir.ofCode d = none ∨ ms < 100 ∨ 5000 < ms) :
    ownManualMove f d ms s = refused .range s := by
  rw [ownManualMove, if_neg h, if_neg (by simp [hm])]
  split
  · next hf hd => exact if_pos (by simpa [hf, hd] using ho)
  · rfl

variable {fn : Func} {dir : Dir} (hf : Func.ofCode f = some fn) (hd : Dir.ofCode d = some dir)
  (hl : 100 ≤ ms) (hu : ms ≤ 5000)
include hf hd hl hu

theorem ownManualMove_of_in : ownManualMove f d ms s =
    if jogMet fn dir s then done s
    else (settle (requestMotion (jogReq fn dir ms) s), .accept) := by
  rw [ownManualMove, if_neg h, if_neg (by simp [hm]), hf, hd]
  exact if_neg (by omega)

end

section
variable {d : Byte}

theorem ownDiverter_of_stands (h : s.aha.stands .wellControl = true) :
    ownDiverter d s = refused .busy s := if_pos h

variable (h : s.aha.stands .wellControl = false)
include h

theorem ownDiverter_of_out (hd : Dir.ofCode d = none) : ownDiverter d s = refused .range s := by
  rw [ownDiverter, if_neg (by simp [h]), hd]

theorem ownDiverter_of_in {dir : Dir} (hd : Dir.ofCode d = some dir) : ownDiverter d s =
    if jogMet .diverter dir s then done s
    else (settle (requestMotion (divertReq dir true false) s), .accept) := by
  rw [ownDiverter, if_neg (by simp [h]), hd]

end

/-! What a jog, or a diverter motion, whose end switch is off makes of the arbiter. -/

/-- A valve driven at its first grant (R66). -/
def State.driven (q : Req) (u : State) : State := u.setAha
  { u.aha with holder := some { q with left := some q.timeout }, valve := some (q.fn, q.dir) }

/-- The holder suspended, its motion stopped (R65). -/
def State.holderSuspended (held : Req) (u : State) : State :=
  (if held.fn = .index then disarmGroup .g1 u else u).setAha
    ⟨none, held.suspended u.rrc.stepMark :: u.aha.stack, u.aha.waiting, none⟩

theorem grantNow_of_first {q : Req} (hm : targetMet s q = false) (hf : q.fn ≠ .index)
    (hl : q.left = none) : grantNow q s = (s.driven q).report (.granted q) := by
  rw [grantNow_of_held (tryGrant_of_valve hm hf), grantReport_eq, if_pos hl]
  simp only [driveValve, hl]
  rfl

theorem holderSuspended_reports {held : Req} : (s.holderSuspended held).reports = s.reports := by
  unfold State.holderSuspended
  split
  · rw [disarmGroup_eq]; rfl
  · rfl

theorem targetMet_holderSuspended {held q : Req} {sw : Switch} (h : q.target = .switch sw) :
    targetMet (s.holderSuspended held) q = targetMet s q := by
  rw [targetMet_of_switch (.inl h), targetMet_of_switch (.inl h), State.holderSuspended]
  by_cases hf : held.fn = .index
  · simp only [hf, if_true, disarmGroup_eq]; rfl
  · simp only [hf, if_false]; rfl

section
variable {q : Req} (hs : s.aha.stands q.client = false) (hm : targetMet s q = false) (hf : q.fn ≠ .index)
  (hl : q.left = none) (hr : s.reports = [])
include hs hm hf hl hr

theorem settle_requestMotion_of_free (hh : s.aha.holder = none) :
    settle (requestMotion q s) = s.driven q := by
  rw [requestMotion_of_free hs hm hh, grantNow_of_first hm hf hl]
  exact settle_granted hr

/-- Over a holder of a lower client it is granted at once (R65). -/
theorem settle_requestMotion_of_above {sw : Switch} {held : Req} (ht : q.target = .switch sw)
    (hh : s.aha.holder = some held) (hk : q.client.rank < held.client.rank) :
    settle (requestMotion q s) = (s.holderSuspended held).driven q := by
  have e : suspendHolder held s =
      (s.holderSuspended held).report (.suspended (held.suspended s.rrc.stepMark)) := by
    rw [suspendHolder_of_holder hh, State.holderSuspended, disarmGroup_eq]
    rfl
  have hm' : targetMet (suspendHolder held s) q = false := by
    rw [e]
    exact (targetMet_holderSuspended ht).trans hm
  rw [requestMotion_of_above hs hm hh hk, grantNow_of_first hm' hf hl, e]
  exact settle_suspended_granted (s := (s.holderSuspended held).driven q) (holderSuspended_reports.trans hr)

end

end

/-- WELL CONTROL ranks above every other client. -/
theorem wellControl_rank_lt {c : Client} (h : c ≠ .wellControl) : Client.wellControl.rank < c.rank := by
  cases c with
  | wellControl => exact absurd rfl h
  | handling | loader | manual => decide

/-- MANUAL ranks below every other client. -/
theorem rank_le_manual (c : Client) : c.rank ≤ Client.manual.rank := by cases c <;> decide

@[simp] theorem elapse_stands (a : Aha) (dt : Nat) (c : Client) :
    (a.elapse dt).stands c = a.stands c := by
  simp only [Aha.stands, Aha.standing, Aha.elapse]
  cases a.holder <;> rfl

/-- Settles O44: the two messages by their checks, and each operation of the arbiter by its lemma. -/
theorem movesOfThePackAreRequested : Obligations.MovesOfThePackAreRequested := by
  refine ⟨?_, ?_, ?_, fun q u => ⟨fun sw => targetMet_of_switch, fun n => targetMet_of_slot, fun ht => ?_⟩,
    fun n u => ⟨passOn_of_none, fun c stack waiting h => ?_⟩, ?_, fun c u => withdraw_of_other,
    fun q w l => ⟨rfl, rfl⟩⟩
  · intro dt tag s hs h
    have hon : s.tps.phase ≠ .off := by simp [hs.1]
    have hrep : h.reports = [] := heard_reports.trans hs.2.1
    have haha : h.aha = s.aha.elapse dt := heard_aha hon
    have hstands (c : Client) : s.aha.stands c = h.aha.stands c := by
      rw [haha, elapse_stands]
    rw [hstands .manual, hstands .wellControl, show s.hs.seq = h.hs.seq by simp [h, State.heard],
      show s.rrc = h.rrc from heard_rrc.symm,
      show s.aha.stack = h.aha.stack by simp [h, State.heard],
      show s.aha.waiting = h.aha.waiting by simp [h, State.heard]]
    refine ⟨fun f d ms => ?_, fun d => ?_⟩
    · intro c r refuse busy
      have same {rep : Reply} (e : ownManualMove f d ms.toNat h = (h, rep)) :
          c = .next (h.answering tag r rep) := congrArg _ (requestRow_unchanged (r := r) hs e)
      refine ⟨fun hb => same (ownManualMove_of_busy hb), fun hb hm => same (ownManualMove_of_stands hb hm),
        fun hb hm => ⟨fun ho => same (ownManualMove_of_out hb hm ho), fun fn dir hf hd hl hu => ?_⟩⟩
      have own_eq := ownManualMove_of_in hb hm hf hd hl hu
      intro q ends
      have hj : jogMet fn dir h = true ↔ ends := jogMet_iff
      have accepts (hn : ¬ends) : own r h = (settle (requestMotion q h), .accept) :=
        own_eq.trans (if_neg (hj.not.2 hn))
      have kept : Keeps h (settle (requestMotion q h)) := settle_keeps (requestMotion_keeps (.refl h))
      have moved {t : State} (hn : ¬ends) (e : settle (requestMotion q h) = t) (ht : t.reports = []) :
          c = .next (t.answering tag r .accept) :=
        congrArg _ (requestRow_answering_keeps hs (e ▸ accepts hn) (e ▸ kept) ht)
      have hmet (hn : ¬ends) : targetMet h q = false :=
        (targetMet_jogReq ..).trans (Bool.eq_false_iff.2 (hj.not.2 hn))
      refine ⟨fun he => same (own_eq.trans (if_pos (hj.2 he))),
        fun hn => congrArg _ (requestRow_replying_keeps hs (accepts hn) kept),
        fun hn hf' ha => moved hn ?_ ?_, fun held hn hf' hh => moved hn ?_ ?_⟩
      · have hh : h.aha = ⟨none, [], [], none⟩ := by rw [haha, ha]; rfl
        rw [settle_requestMotion_of_free hm (hmet hn) hf' rfl hrep (by rw [hh]), State.driven, hh]
        rfl
      · exact hrep
      · have e := requestMotion_of_below (q := q) hm (hmet hn) hh (rank_le_manual _)
        rw [e]
        exact settle_of_nil hrep
      · exact hrep
    · intro c refuse
      have same {rep : Reply} (e : ownDiverter d h = (h, rep)) :
          c = .next (h.answering tag (.diverter d) rep) :=
        congrArg _ (requestRow_unchanged (r := .diverter d) hs e)
      refine ⟨fun hw => same (ownDiverter_of_stands hw), fun hw => ⟨fun h1 h2 => same
        (ownDiverter_of_out hw ((if_neg h1).trans (if_neg h2))), fun dir sw hd => ?_⟩⟩
      intro q
      have hfn : (divertReq dir true false).fn ≠ .index := show Func.diverter ≠ .index by decide
      have hcode : Dir.ofCode d = some dir := by
        rcases hd with ⟨rfl, rfl, -⟩ | ⟨rfl, rfl, -⟩ <;> rfl
      have htarget : (divertReq dir true false).target = .switch sw := by
        rcases hd with ⟨-, rfl, rfl⟩ | ⟨-, rfl, rfl⟩ <;> rfl
      have hjog : jogMet .diverter dir h = h.on sw := by
        rw [← targetMet_divertReq dir true false, targetMet_of_switch (.inl htarget)]
      have own_eq := ownDiverter_of_in hw hcode
      rw [hjog] at own_eq
      have moved {t : State} (ho : h.on sw = false)
          (e : settle (requestMotion (divertReq dir true false) h) = t) (ht : t.reports = []) :
          c = .next (t.answering tag (.diverter d) .accept) :=
        congrArg _ (requestRow_answering_keeps (r := .diverter d) hs
          (e ▸ own_eq.trans (if_neg (by simp [ho])))
          (e ▸ settle_keeps (requestMotion_keeps (.refl h))) ht)
      have hmet (ho : h.on sw = false) : targetMet h (divertReq dir true false) = false :=
        (targetMet_of_switch (.inl htarget)).trans ho
      refine ⟨fun ho => same (own_eq.trans (if_pos ho)), fun ho hh => moved ho
        (settle_requestMotion_of_free hw (hmet ho) hfn rfl hrep (by rw [haha, Aha.elapse, hh]; rfl)) hrep,
        fun held ho hh => moved ho
        (settle_requestMotion_of_above hw (hmet ho) hfn rfl hrep htarget hh (wellControl_rank_lt ?_))
        (holderSuspended_reports.trans hrep)⟩
      exact stands_eq_false.1 hw held (by simp [Aha.standing, hh])
  · intro q u hs
    have hs := stands_eq_false.2 hs
    refine ⟨requestMotion_of_met hs, fun hm hh => ?_, fun held hm hh =>
      ⟨requestMotion_of_below hs hm hh, fun hr => ?_⟩⟩
    · rw [requestMotion_of_free hs hm hh]
      exact ⟨fun v => grantNow_of_held, fun v => grantNow_of_ended⟩
    · rw [requestMotion_of_above hs hm hh hr, suspendHolder_of_holder hh]
      exact ⟨fun v => grantNow_of_held, fun v => grantNow_of_ended⟩
  · intro q u
    have hg := grantReport_eq (q := q)
    intro told guard m saved armed
    have ht : u.report q.grantReport = told := congrArg u.report hg
    refine ⟨tryGrant_of_met, fun hm hf => ?_, fun hm hf => ⟨tryGrant_of_mismatch hm hf,
      fun hg hl => ?_, fun hg hl => ?_⟩⟩
    · rw [tryGrant_of_valve hm hf, ht]
      rfl
    · rw [tryGrant_of_match hm hf hg, hl, ht]
      rfl
    · rw [tryGrant_of_match hm hf hg, hl, ht]
      show (driveIndex q armed, true) = _
      rw [driveIndex_eq hf]
      rfl
  · simp only [targetMet, ht]
  · exact ⟨fun v => passOn_of_held (nextCandidate_eq h), fun v => passOn_of_ended (nextCandidate_eq h)⟩
  · intro u held hh
    rw [withdraw_of_holder hh, ← stopHolder_of_holder hh]
    exact ⟨fun rep => rfl, rfl⟩

end Sys2Proof.Machine
end

section
/-! PROOFS. Hydraulic arbiter: what a step hands the sequencer comes to an end within it (log 7). -/

namespace Sys2Proof.Machine

/-! ## What an operation of the arbiter or the loader hands on (R63, log 7) -/

/-- A stage whose condition HEAD CONNECTED does not stand against (R83, R85). -/
def meets (hc : Bool) : Stage → Bool
  | .unscrew => !hc
  | .free => !hc
  | .make => hc
  | .reconnect => hc
  | _ => true

/-- From `s` to `t` at most `k` reports are handed on, a stage's condition only where HEAD CONNECTED
allows it. -/
def Hands (hc : Bool) (k : Nat) (s t : State) : Prop :=
  ∃ l, t.reports = s.reports ++ l ∧ l.length ≤ k ∧ ∀ st, Report.stageMet st ∈ l → meets hc st = true

/-- The same, where the switches, the operation and the sequencer's state stand. -/
structure Passes (hc : Bool) (k : Nat) (s t : State) : Prop where
  hands : Hands hc k s t
  sensed : t.sfe.debounced = s.sfe.debounced
  op : t.hs.op = s.hs.op
  seq : t.hs.seq = s.hs.seq

section
variable {hc : Bool} {j k : Nat} {s t u : State} {r : Req}

theorem Hands.trans (h : Hands hc j s t) (g : Hands hc k t u) : Hands hc (j + k) s u := by
  obtain ⟨l, hl, hj, hm⟩ := h
  obtain ⟨l', hl', hk, hm'⟩ := g
  refine ⟨l ++ l', by rw [hl', hl, List.append_assoc], by simp; omega, fun st hst => ?_⟩
  exact (List.mem_append.1 hst).elim (hm st) (hm' st)

theorem Hands.mono (h : Hands hc j s t) (hk : j ≤ k) : Hands hc k s t := by
  obtain ⟨l, hl, hj, hm⟩ := h
  exact ⟨l, hl, hj.trans hk, hm⟩

theorem Hands.of_same (h : t.reports = s.reports) : Hands hc 0 s t :=
  ⟨[], by simp [h], le_rfl, by simp⟩

theorem Hands.report (x : Report) (hx : ∀ st, x = .stageMet st → meets hc st = true) :
    Hands hc 1 s (s.report x) :=
  ⟨[x], rfl, le_rfl, fun st h => hx st (List.mem_singleton.1 h).symm⟩

theorem Passes.refl (s : State) : Passes hc 0 s s := ⟨.of_same rfl, rfl, rfl, rfl⟩

theorem Passes.trans (h : Passes hc j s t) (g : Passes hc k t u) : Passes hc (j + k) s u :=
  ⟨h.hands.trans g.hands, g.sensed.trans h.sensed, g.op.trans h.op, g.seq.trans h.seq⟩

theorem Passes.mono (h : Passes hc j s t) (hk : j ≤ k) : Passes hc k s t :=
  ⟨h.hands.mono hk, h.sensed, h.op, h.seq⟩

theorem Passes.setAha (h : Passes hc k s t) (x : Aha) : Passes hc k s (t.setAha x) :=
  ⟨h.hands, h.sensed, h.op, h.seq⟩

theorem Passes.setRrc (h : Passes hc k s t) (x : Rrc) : Passes hc k s (t.setRrc x) :=
  ⟨h.hands, h.sensed, h.op, h.seq⟩

theorem Passes.report (h : Passes hc k s t) {x : Report} (hx : ∀ st, x ≠ .stageMet st) :
    Passes hc (k + 1) s (t.report x) :=
  h.trans ⟨.report x fun st e => (hx st e).elim, rfl, rfl, rfl⟩

theorem Passes.offBuilder (h : Passes hc k s t) (e : u.offBuilder = t.offBuilder) : Passes hc k s u :=
  h.trans ⟨.of_same (reports_of_offBuilder e), congrArg (·.1.debounced) e,
    congrArg Hs.op (hs_of_offBuilder e), congrArg Hs.seq (hs_of_offBuilder e)⟩

theorem writeGroup_passes (h : Passes hc k s t) (n : GroupNo) (x y : SwitchSet) :
    Passes hc k s (writeGroup n x y t).1 := by
  cases n <;> exact ⟨h.hands, h.sensed, h.op, h.seq⟩

theorem disarmGroup_passes (h : Passes hc k s t) (n : GroupNo) : Passes hc k s (disarmGroup n t) :=
  writeGroup_passes h n 0 0

theorem grantReport_ne (r : Req) (st : Stage) : r.grantReport ≠ .stageMet st := by
  unfold Req.grantReport
  split <;> simp

theorem tryGrant_passes (h : Passes hc k s t) : Passes hc (k + 1) s (tryGrant r t).1 := by
  have armed {u : State} {m : Bool} (e : armGuard t = (u, m)) : Passes hc k s u := by
    have ha : Passes hc k s (armGuard t).1 := writeGroup_passes h .g1 guardSet guardSet
    rwa [e] at ha
  fun_cases tryGrant r t with
  | case1 => exact h.report (by simp)
  | case2 _ _ _ e => exact (disarmGroup_passes (armed e) _).report (by simp)
  | case3 _ _ _ _ e => exact (((armed e).report (grantReport_ne r)).setAha _).setRrc _
  | case4 _ _ _ _ e => exact ((armed e).report (grantReport_ne r)).setAha _
  | case5 => exact (h.report (grantReport_ne r)).setAha _

theorem passOn_passes (n : Nat) (h : Passes hc k s t) : Passes hc (k + n) s (passOn n t) := by
  induction n generalizing t k with
  | zero => exact h
  | succ n ih =>
    unfold passOn
    split
    · exact h.mono (Nat.le_add_right ..)
    · next q a _ =>
      have ht := tryGrant_passes (r := q) (h.setAha a)
      rcases e : tryGrant q (t.setAha a) with ⟨u, held⟩
      rw [e] at ht
      cases held with
      | true => exact ht.mono (by omega)
      | false => exact (ih ht).mono (by omega)

theorem stopHolder_passes (h : Passes hc k s t) : Passes hc k s (stopHolder t) := by
  unfold stopHolder
  split
  · exact h
  · simp only []
    split
    · exact (disarmGroup_passes h .g1).setAha _
    · exact h.setAha _

theorem suspendHolder_passes (h : Passes hc k s t) : Passes hc (k + 1) s (suspendHolder r t) :=
  ((stopHolder_passes h).setAha _).report (by simp)

theorem grantNow_passes (h : Passes hc k s t) : Passes hc (k + 5) s (grantNow r t) := by
  have ht := tryGrant_passes (r := r) h
  unfold grantNow
  rcases e : tryGrant r t with ⟨u, held⟩
  rw [e] at ht
  cases held with
  | true => exact ht.mono (by omega)
  | false => exact passOn_passes 4 ht

theorem requestMotion_passes (h : Passes hc k s t) : Passes hc (k + 6) s (requestMotion r t) := by
  fun_cases requestMotion r t with
  | case1 | case2 => exact (h.report (by simp)).mono (by omega)
  | case3 => exact (grantNow_passes h).mono (by omega)
  | case4 => exact (grantNow_passes (suspendHolder_passes h)).mono (by omega)
  | case5 => exact (h.setAha _).mono (by omega)

theorem withdraw_passes (h : Passes hc k s t) (c : Client) : Passes hc (k + 4) s (withdraw c t) := by
  unfold withdraw
  split
  · exact passOn_passes 4 (stopHolder_passes h)
  · exact (h.setAha _).mono (by omega)

theorem loaderTest_passes (h : Passes hc k s t) : Passes hc (k + 6) s (loaderTest t) := by
  have still : Passes hc (k + 6) s t := h.mono (by omega)
  fun_cases loaderTest t with
  | case2 => exact requestMotion_passes (h.setRrc _)
  | case5 => exact (withdraw_passes (h.setRrc _) _).mono (by omega)
  | _ => exact still

theorem setHold_passes (h : Passes hc k s t) (b : Bool) : Passes hc (k + 6) s (setHold b t) := by
  unfold setHold
  split
  · exact h.mono (by omega)
  · exact loaderTest_passes (h.setRrc _)

theorem setDepthHold_passes (h : Passes hc k s t) (b : Bool) : Passes hc k s (setDepthHold b t) := by
  unfold setDepthHold
  split
  · exact h
  · have held : Passes hc k s (t.setHs { t.hs with depthHold := b }) :=
      ⟨h.hands, h.sensed, h.op, h.seq⟩
    exact held.offBuilder (decideDepth_offBuilder _)

theorem deliverLength_passes (h : Passes hc k s t) : Passes hc k s (deliverLength t) := by
  unfold deliverLength
  simp only []
  split
  · exact h
  · exact h.offBuilder (recompute_offBuilder _)

theorem countConnection_passes (h : Passes hc k s t) (i : Nat) : Passes hc k s (countConnection i t) := by
  have hw := fun u => wearOut_offBuilder u i .connections
  fun_cases countConnection i t with
  | case1 => exact (h.setRrc _).offBuilder (hw _)
  | _ => exact h.setRrc _

theorem dibTorque_passes (h : Passes hc k s t) (x : Option Nat) : Passes hc k s (dibTorque x t) := by
  unfold dibTorque
  split
  · exact h
  · exact h.offBuilder (setDib_offBuilder _ _)

end

/-! ## How many reports an operation can still hand on (R79, log 7) -/

/-- The reports that the end of a stage and the beginning of the next can hand on: those of one request
or of one operation held, and more where the carousel hold is set or freed (before INDEX, after RETURN)
and where BREAK has its wrench to release. -/
def stageCost : Stage → WrenchPhase → Nat
  | .quiet, _ => 12
  | .unscrew, _ => 12
  | .ret, _ => 12
  | .brk, .grip => 12
  | _, _ => 6

/-- The reports that stages in a row can hand on within one step, up to the first that waits for HEAD
CONNECTED to change; with none the bound of a step (log 7) is passed. -/
def chainLeft (hc : Bool) : WrenchPhase → List Stage → Nat
  | _, [] => 101
  | w, st :: rest => if meets hc st then stageCost st w + chainLeft hc .grip rest else 0

/-- An operation's stages from one on (R83, R85). -/
def Op.stagesFrom (op : Op) (st : Stage) : List Stage := op.stages.dropWhile (· != st)

/-- What the operation in flight can still hand on within the step. -/
def State.left (hc : Bool) (s : State) : Nat :=
  match s.hs.op with
  | some o =>
    if s.hs.seq = .running ∨ s.hs.seq = .waiting then
      chainLeft hc o.wrench (o.op.stagesFrom o.stage)
    else 0
  | none => 0

theorem stagesFrom_of_next {op : Op} {st st' : Stage} (h : op.next st = some st') :
    op.stagesFrom st = st :: op.stagesFrom st' := by
  cases op <;> cases st <;> cases h <;> rfl

theorem stagesFrom_of_last {op : Op} {st : Stage} (h : op.next st = none) :
    op.stagesFrom st = [] ∨ st = .unclamp := by
  cases op <;> cases st <;> first | exact .inr rfl | exact .inl rfl | cases h

theorem stagesFrom_eq (op : Op) (st : Stage) :
    op.stagesFrom st = [] ∨ ∃ rest, op.stagesFrom st = st :: rest := by
  cases op <;> cases st <;> first | exact .inl rfl | exact .inr ⟨_, rfl⟩

/-- From QUIET on, HEAD CONNECTED ends the row of stages within a step's bound. -/
theorem chainLeft_quiet (hc : Bool) (op : Op) (w : WrenchPhase) :
    chainLeft hc w (op.stagesFrom .quiet) ≤ 78 := by
  cases hc <;> cases op <;> cases w <;> decide

/-- The reports that a stage's record changes can hand on. -/
def changesCost (st : Stage) : Nat := if st = .ret then 6 else 0

/-- The reports that a stage's beginning can hand on. -/
def beginCost (st : Stage) : Nat := if st = .index then 12 else 6

theorem cost_of_next {op : Op} {st st' : Stage} (h : op.next st = some st') (w : WrenchPhase) :
    changesCost st + beginCost st' ≤ stageCost st w := by
  cases op <;> cases st <;> cases h <;> cases w <;> decide

theorem six_le_stageCost (st : Stage) (w : WrenchPhase) : 6 ≤ stageCost st w := by
  cases st <;> cases w <;> decide

theorem six_le_beginCost (st : Stage) : 6 ≤ beginCost st := by cases st <;> decide

theorem meets_of_motion {st : Stage} (h : st ∉ waitStages) (hc : Bool) : meets hc st = true := by
  cases st <;> simp [waitStages] at h <;> rfl

theorem meets_of_conditionMet {o : OpRec} {s : State} (h : conditionMet o s = true) :
    meets (s.on .headConnected) o.stage = true := by
  cases hs : o.stage with
  | unscrew | free => simpa [meets] using (conditionMet_off (by simp [hs])).1 h
  | make => exact ((conditionMet_make hs).1 h).1
  | reconnect => exact (conditionMet_reconnect hs).symm.trans h
  | _ => rfl

theorem Keeps.input {α : Type} {s t : State} (k : Keeps s t) (p : Sfe → α)
    (hp : ∀ f, p f.inputs = p f) : p t.sfe = p s.sfe := by
  rw [← hp, k.inputs, hp]

section
variable {hc : Bool} {k n : Nat} {s t u : State} {o : OpRec} {st : Stage}

theorem left_of_stopped (h1 : s.hs.seq ≠ .running) (h2 : s.hs.seq ≠ .waiting) : s.left hc = 0 := by
  unfold State.left
  split
  · exact if_neg (by simp [h1, h2])
  · rfl

theorem left_of_acting (ho : s.hs.op = some o) (h : s.hs.seq = .running ∨ s.hs.seq = .waiting) :
    s.left hc = chainLeft hc o.wrench (o.op.stagesFrom o.stage) := by
  rw [State.left, ho]
  exact if_pos h

/-- The sequencer runs only at a stage that has a motion (R83, R85, R86). -/
def State.Moving (s : State) : Prop :=
  ∀ o, s.hs.op = some o → s.hs.seq = .running → o.stage ∉ waitStages

/-- From `s` to `t` the reports handed on and those that the operation can still hand on are at most
`n`. -/
structure Proceeds (hc : Bool) (n : Nat) (s t : State) : Prop where
  room : ∃ k, Hands hc k s t ∧ k + t.left hc ≤ n
  moving : t.Moving

theorem Proceeds.after (h : Hands hc k s t) (g : Proceeds hc n t u) : Proceeds hc (k + n) s u := by
  obtain ⟨⟨j, hj, hn⟩, hm⟩ := g
  exact ⟨⟨k + j, h.trans hj, by omega⟩, hm⟩

theorem Proceeds.mono (h : Proceeds hc k s t) (hn : k ≤ n) : Proceeds hc n s t := by
  obtain ⟨⟨j, hj, hk⟩, hm⟩ := h
  exact ⟨⟨j, hj, hk.trans hn⟩, hm⟩

theorem proceeds_of_stopped (h : Hands hc n s t) (h1 : t.hs.seq ≠ .running) (h2 : t.hs.seq ≠ .waiting) :
    Proceeds hc n s t :=
  ⟨⟨n, h, by rw [left_of_stopped h1 h2, Nat.add_zero]⟩, fun _ _ hr => (h1 hr).elim⟩

theorem proceeds_of_acting (h : Hands hc k s t) (ho : t.hs.op = some o)
    (hq : t.hs.seq = .waiting ∨ (t.hs.seq = .running ∧ o.stage ∉ waitStages))
    (hl : k + chainLeft hc o.wrench (o.op.stagesFrom o.stage) ≤ n) : Proceeds hc n s t := by
  refine ⟨⟨k, h, ?_⟩, fun p hp hr => ?_⟩
  · rwa [left_of_acting ho (hq.elim .inr fun hq => .inl hq.1)]
  · obtain rfl : o = p := Option.some.inj (ho.symm.trans hp)
    exact hq.elim (fun hw => by simp [hw] at hr) And.right

/-- An operation that is held withdraws its request (R92). -/
theorem holdOp_proceeds (ho : s.hs.op = some o) (cause : HeldCause) (m : Option SwitchSet) :
    Proceeds hc 4 s (holdOp cause m s) := by
  rw [holdOp_of_op ho]
  have hw := withdraw_passes (Passes.refl (hc := hc)
    (s.setHs { s.hs with seq := .held, cause := some (.held cause m), stall := none })) .handling
  have hq : (withdraw .handling (s.setHs
    { s.hs with seq := .held, cause := some (.held cause m), stall := none })).hs.seq = .held := hw.seq
  exact proceeds_of_stopped (hw.hands.trans (.of_same rfl)) (by simp [hq]) (by simp [hq])

/-- A stage that is waited in starts: it is tested at once (R79). -/
theorem startStage_proceeds_of_wait (ho : o.stage ∈ waitStages) (hb : o.begun = true)
    (hon : s.on .headConnected = hc) :
    Proceeds hc (1 + chainLeft hc o.wrench (o.op.stagesFrom o.stage)) s (startStage o s) := by
  have hv : Passes hc 0 s (s.unscrewHeld o.stage) := by
    unfold State.unscrewHeld
    split
    · exact setDepthHold_passes (.refl s) true
    · exact .refl s
  have hon : ((s.unscrewHeld o.stage).stageWaits o).on .headConnected = hc :=
    (congrArg (inSet · Switch.headConnected) hv.sensed).trans hon
  have hw : Hands hc 0 s ((s.unscrewHeld o.stage).stageWaits o) := hv.hands
  rw [startStage_of_met ho hb]
  split
  · next hm =>
    have met := hon ▸ meets_of_conditionMet hm
    exact proceeds_of_acting (hw.trans (.report (.stageMet o.stage) fun st e => by cases e; exact met))
      (o := o.figured _) rfl (.inl rfl) (by simp [OpRec.figured])
  · exact proceeds_of_acting hw (o := o.figured _) rfl (.inl rfl) (by simp [OpRec.figured])

/-- A stage that has a motion requests it, INDEX with the carousel hold set first (R58, R79). -/
theorem startStage_of_motion (h : o.stage ∉ waitStages) : ∃ r t,
    startStage o s = requestMotion r (t.setHs { t.hs with seq := .running, stall := none }) ∧
      Passes hc (beginCost o.stage - 6) s t := by
  obtain ⟨op, rod, slot, st, begun, trip, wrench, rotBase, peak⟩ := o
  have same : Passes hc 0 s s := .refl s
  cases st with
  | index => exact ⟨_, _, rfl, setHold_passes same true⟩
  | brk => cases wrench <;> exact ⟨_, _, rfl, setDepthHold_passes same true⟩
  | ret => cases op <;> exact ⟨_, _, rfl, same⟩
  | clamp | present | unclamp | catchRod | stow => exact ⟨_, _, rfl, same⟩
  | quiet | unscrew | make | lift | spin | free | reconnect => simp [waitStages] at h

theorem startStage_proceeds_of_motion (h : o.stage ∉ waitStages) (ho : s.hs.op = some o) :
    Proceeds hc (beginCost o.stage + chainLeft hc o.wrench (o.op.stagesFrom o.stage)) s
      (startStage o s) := by
  obtain ⟨r, t, e, ht⟩ := startStage_of_motion (hc := hc) (s := s) h
  let v := t.setHs { t.hs with seq := .running, stall := none }
  have hr := requestMotion_passes (r := r) (.refl (hc := hc) v)
  have hands : Hands hc (beginCost o.stage - 6 + 6) s (requestMotion r v) :=
    ht.hands.trans hr.hands
  rw [e]
  refine proceeds_of_acting hands (hr.op.trans (ht.op.trans ho)) (.inr ⟨hr.seq, h⟩) ?_
  have := six_le_beginCost o.stage
  omega

theorem startStage_proceeds (ho : s.hs.op = some o) (hb : o.begun = true)
    (hon : s.on .headConnected = hc) :
    Proceeds hc (beginCost o.stage + chainLeft hc o.wrench (o.op.stagesFrom o.stage)) s
      (startStage o s) := by
  by_cases h : o.stage ∈ waitStages
  · have := six_le_beginCost o.stage
    exact (startStage_proceeds_of_wait h hb hon).mono (by omega)
  · exact startStage_proceeds_of_motion h ho

/-- A stage begins, waits for the gain to clear, or is held (R79, R90, R92). -/
theorem beginStage_proceeds (ho : s.hs.op = some o) (hon : s.on .headConnected = hc) :
    Proceeds hc (beginCost st + chainLeft hc .grip (o.op.stagesFrom st)) s (beginStage st s) := by
  by_cases hg : st.opening = true ∧ s.cm.gainLatch ≠ none
  · rw [beginStage_of_gainWait ho hg.1 hg.2]
    exact proceeds_of_acting (.of_same rfl) rfl (.inl rfl) (by dsimp only; omega)
  · let t := s.stageBegun (o.begunAt st) (guardOf o.op st)
    have ht : Hands hc 0 s t := .of_same rfl
    rw [beginStage_of_no_gain ho hg]
    dsimp only
    split
    · have := six_le_beginCost st
      exact ((holdOp_proceeds (s := t) rfl _ _).after ht).mono (by omega)
    · exact ((startStage_proceeds (s := t) (o := o.begunAt st) rfl rfl hon).after ht).mono (by
        simp [OpRec.begunAt])

/-- A stage's record changes, with the carousel hold freed after RETURN (R83, R85, R88). -/
theorem stageChanges_passes : Passes hc (changesCost o.stage) s (stageChanges o s) := by
  have same : Passes hc 0 s s := .refl s
  obtain ⟨op, rod, slot, st, begun, trip, wrench, rotBase, peak⟩ := o
  cases st with
  | present | stow => exact same.setRrc _
  | make =>
    exact setDepthHold_passes (deliverLength_passes (dibTorque_passes
      (countConnection_passes (same.setRrc _) _) _)) _
  | brk => exact countConnection_passes same _
  | free => exact setDepthHold_passes (deliverLength_passes (same.setRrc _)) _
  | ret =>
    cases op with
    | addRod => exact setHold_passes (same.setRrc _) _
    | removeRod => exact setHold_passes same _
  | _ => exact same

/-- The next stage begins, after CLAMP with CLAMP CLOSED watched first (R79, R80). -/
theorem completeStage_of_next (ho : s.hs.op = some o) (hn : o.op.next o.stage = some st) :
    completeStage s =
      let t := stageChanges o (s.setHs { s.hs with stall := none })
      let w := writeGroup .g0 (guardOf o.op st) (guardOf o.op st) t
      if o.stage = .clamp then
        if w.2 then
          holdOp .guard (some w.1.sfe.g0.mism)
            (w.1.setHs { w.1.hs with op := some { o with stage := st, begun := false } })
        else beginStage st w.1
      else beginStage st t := by
  unfold completeStage
  split
  · next e => simp [ho] at e
  · next p hp =>
    obtain rfl : o = p := Option.some.inj (ho.symm.trans hp)
    simp only [hn]

/-- A stage that completes within the bound has another after it, which begins or is held (R79, R92). -/
theorem completeStage_proceeds (ho : s.hs.op = some o) (hon : s.on .headConnected = hc)
    (hm : meets hc o.stage = true) (hl : chainLeft hc o.wrench (o.op.stagesFrom o.stage) ≤ 100) :
    Proceeds hc (chainLeft hc o.wrench (o.op.stagesFrom o.stage)) s (completeStage s) := by
  cases hn : o.op.next o.stage with
  | none =>
    rcases stagesFrom_of_last hn with e | e
    · simp [e, chainLeft] at hl
    · cases hop : o.op <;> simp [e, hop, Op.stagesFrom, Op.stages, chainLeft, meets] at hl
  | some st =>
    let s1 := s.setHs { s.hs with stall := none }
    have cost := cost_of_next hn o.wrench
    have left : chainLeft hc o.wrench (o.op.stagesFrom o.stage) =
        stageCost o.stage o.wrench + chainLeft hc .grip (o.op.stagesFrom st) := by
      rw [stagesFrom_of_next hn, chainLeft, if_pos hm]
    have changed : Passes hc (changesCost o.stage) s1 (stageChanges o s1) := stageChanges_passes
    have begins {t : State} (ht : Passes hc (changesCost o.stage) s1 t) :
        Proceeds hc (chainLeft hc o.wrench (o.op.stagesFrom o.stage)) s (beginStage st t) := by
      have hton : t.on .headConnected = hc :=
        (congrArg (inSet · Switch.headConnected) ht.sensed).trans hon
      have hands : Hands hc (changesCost o.stage) s t := ht.hands
      exact ((beginStage_proceeds (ht.op.trans ho) hton).after hands).mono (by omega)
    rw [completeStage_of_next ho hn]
    dsimp only
    have watched := writeGroup_passes changed .g0 (guardOf o.op st) (guardOf o.op st)
    generalize writeGroup .g0 (guardOf o.op st) (guardOf o.op st) (stageChanges o s1) = w at watched
    split
    · split
      · let u := w.1.setHs { w.1.hs with op := some { o with stage := st, begun := false } }
        have hu : Hands hc (changesCost o.stage) s u := watched.hands
        have := six_le_beginCost st
        exact ((holdOp_proceeds (s := u) rfl _ _).after hu).mono (by omega)
      · exact begins watched
    · exact begins changed

/-! ## A step's reports come to an end (log 7) -/

/-- The reports that wait and those that the operation can still hand on are at most `n`. -/
structure Chains (hc : Bool) (n : Nat) (s : State) : Prop where
  on : s.on .headConnected = hc
  met : ∀ st, Report.stageMet st ∈ s.reports → meets hc st = true
  room : s.reports.length + s.left hc ≤ n
  moving : s.Moving

theorem Chains.proceed (h : Chains hc n s) (hon : t.on .headConnected = hc)
    (g : Proceeds hc (s.left hc) s t) : Chains hc n t := by
  obtain ⟨⟨k, ⟨l, hl, hk, hm⟩, hr⟩, hmov⟩ := g
  refine ⟨hon, fun st hst => ?_, ?_, hmov⟩
  · rw [hl] at hst
    exact (List.mem_append.1 hst).elim (h.met st) (hm st)
  · have := h.room
    rw [hl, List.length_append]
    omega

/-- What leaves the sequencer and the reports alone. -/
theorem proceeds_of_same (h : s.Moving) (h1 : t.reports = s.reports) (h2 : t.hs = s.hs) :
    Proceeds hc (s.left hc) s t :=
  ⟨⟨0, .of_same h1, by simp [State.left, h2]⟩, by simpa [State.Moving, h2] using h⟩

theorem Proceeds.refl (h : s.Moving) : Proceeds hc (s.left hc) s s := proceeds_of_same h rfl rfl

theorem hsStageMet_proceeds (h : s.Moving) (hon : s.on .headConnected = hc) (hm : meets hc st = true)
    (hl : s.left hc ≤ 100) : Proceeds hc (s.left hc) s (hsStageMet st s) := by
  unfold hsStageMet
  split
  · next o ho =>
    split
    · next hw =>
      obtain ⟨⟨hq, -⟩, rfl⟩ : (s.hs.seq = .waiting ∧ o.begun = true) ∧ o.stage = st := by
        simpa using hw
      rw [left_of_acting ho (.inr hq)] at hl ⊢
      exact completeStage_proceeds ho hon hm hl
    · exact .refl h
  · exact .refl h

theorem hsMotionDone_proceeds (h : s.Moving) (hon : s.on .headConnected = hc) (hl : s.left hc ≤ 100) :
    Proceeds hc (s.left hc) s (hsMotionDone s) := by
  unfold hsMotionDone
  split
  · exact .refl h
  · next o ho =>
    split
    · exact .refl h
    · next hr =>
      have hr : s.hs.seq = .running := by simpa using hr
      have hmot := h o ho hr
      rw [left_of_acting ho (.inl hr)] at hl ⊢
      split
      · next hb =>
        obtain ⟨hst, hwr⟩ : o.stage = .brk ∧ o.wrench = .grip := by simpa using hb
        obtain ⟨op, rod, slot, st, begun, trip, wrench, rotBase, peak⟩ := o
        obtain rfl : st = .brk := hst
        obtain rfl : wrench = .grip := hwr
        let v := s.setHs
          { s.hs with op := some ⟨op, rod, slot, .brk, begun, trip, .release, rotBase, peak⟩ }
        have hv : Hands hc 0 s v := .of_same rfl
        have req := requestMotion_passes (r := .new .handling .wrench .second (.switch .wrenchOpen))
          (.refl (hc := hc) v)
        rcases stagesFrom_eq op .brk with e | ⟨rest, e⟩
        · simp [e, chainLeft] at hl
        · refine proceeds_of_acting (hv.trans req.hands) req.op (.inr ⟨req.seq.trans hr, hmot⟩) ?_
          simp only [e, chainLeft, meets, stageCost, if_true]
          omega
      · exact completeStage_proceeds ho hon (meets_of_motion hmot hc) hl

theorem hsMotionFailed_proceeds (h : s.Moving) (r : Req) (c : FailCause) (m : SwitchSet) :
    Proceeds hc (s.left hc) s (hsMotionFailed r c m s) := by
  unfold hsMotionFailed
  split
  · exact .refl h
  · next hr =>
    have hr : s.hs.seq = .running := by simpa using hr
    cases ho : s.hs.op with
    | none => cases c <;> simp only [holdOp, faultOp, ho] <;> exact .refl h
    | some o =>
      have six : 6 ≤ s.left hc := by
        rw [left_of_acting ho (.inl hr)]
        rcases stagesFrom_eq o.op o.stage with e | ⟨rest, e⟩
        · simp [e, chainLeft]
        · rw [e, chainLeft, if_pos (meets_of_motion (h o ho hr) hc)]
          exact (six_le_stageCost _ _).trans (Nat.le_add_right ..)
      cases c with
      | guard => exact (holdOp_proceeds ho _ _).mono (by omega)
      | timeout =>
        have faulted : (faultOp r.fn .timeout s).reports = s.reports ∧
            (faultOp r.fn .timeout s).hs.seq = .faulted := by
          rw [faultOp, ho]
          exact ⟨rfl, rfl⟩
        exact (proceeds_of_stopped (.of_same faulted.1) (by simp [faulted.2]) (by simp [faulted.2])).mono
          (Nat.zero_le _)

theorem wellDone_apart (r : Req) : (wellDone r s).reports = s.reports ∧ (wellDone r s).hs = s.hs := by
  unfold wellDone setDivert
  dsimp only
  split <;> split <;> exact ⟨rfl, rfl⟩

theorem wellFailed_apart (r : Req) :
    (wellFailed r s).reports = s.reports ∧ (wellFailed r s).hs = s.hs := by
  unfold wellFailed setDivert
  dsimp only
  split
  · split <;> split <;> exact ⟨rfl, rfl⟩
  · split <;> exact ⟨rfl, rfl⟩

theorem loaderDone_apart : (loaderDone s).reports = s.reports ∧ (loaderDone s).hs = s.hs := by
  unfold loaderDone
  split <;> exact ⟨rfl, rfl⟩

theorem loaderFailed_apart (c : FailCause) :
    (loaderFailed c s).reports = s.reports ∧ (loaderFailed c s).hs = s.hs := by
  unfold loaderFailed
  split <;> exact ⟨rfl, rfl⟩

/-- A client takes a report; only HANDLING's ends reach the sequencer (R41, R59, R73, R74, R79, R93). -/
theorem takeReport_proceeds (r : Report) (h : s.Moving) (hon : s.on .headConnected = hc)
    (hl : s.left hc ≤ 100) (hm : ∀ st, r = .stageMet st → meets hc st = true) :
    Proceeds hc (s.left hc) s (takeReport r s) := by
  have apart {t : State} (e : t.reports = s.reports ∧ t.hs = s.hs) : Proceeds hc (s.left hc) s t :=
    proceeds_of_same h e.1 e.2
  cases r with
  | granted | suspended | resumed | refused => exact apart ⟨rfl, rfl⟩
  | stageMet st => exact hsStageMet_proceeds h hon (hm st rfl) hl
  | complete q how =>
    cases hq : q.client with
    | handling => simpa only [takeReport, hq] using hsMotionDone_proceeds h hon hl
    | wellControl => simpa only [takeReport, hq] using apart (wellDone_apart q)
    | loader => simpa only [takeReport, hq] using apart loaderDone_apart
    | manual => simpa only [takeReport, hq] using apart (t := manualDone q how.jogResult s) ⟨rfl, rfl⟩
  | failed q c m =>
    cases hq : q.client with
    | handling => simpa only [takeReport, hq] using hsMotionFailed_proceeds h q c m
    | wellControl => simpa only [takeReport, hq] using apart (wellFailed_apart q)
    | loader => simpa only [takeReport, hq] using apart (loaderFailed_apart c)
    | manual => simpa only [takeReport, hq] using apart (t := manualDone q c.jogResult s) ⟨rfl, rfl⟩

theorem settleWith_reports (hn : n ≤ 100) (h : Chains hc n s) : (settleWith n s).reports = [] := by
  induction n generalizing s with
  | zero =>
    have := h.room
    exact List.length_eq_zero_iff.1 (by simp only [settleWith]; omega)
  | succ n ih =>
    rw [settleWith]
    split
    · assumption
    · next r rest e =>
      obtain ⟨hon, hmet, hroom, hmov⟩ := h
      rw [e, List.length_cons] at hroom
      have hleft : (s.setReports rest).left hc = s.left hc := rfl
      have rests : Chains hc n (s.setReports rest) :=
        ⟨hon, fun st hst => hmet st (e ▸ List.mem_cons_of_mem _ hst), by
          show rest.length + _ ≤ n
          omega, hmov⟩
      have kept := takeReport_keeps (r := r) (Keeps.refl (s.setReports rest))
      refine ih (by omega) (rests.proceed ?_ (takeReport_proceeds r hmov hon (by omega) fun st hst => ?_))
      · exact (congrArg (inSet · Switch.headConnected) (kept.input Sfe.debounced fun _ => rfl)).trans hon
      · exact hmet st (by simp [e, hst])

end

/-- The monitor's word to the sequencer, QUIET tested again, is taken to its end within a step (log 7). -/
theorem settle_hsMonitor_reports {s : State} (h : s.reports = []) :
    (settle (hsMonitor s)).reports = [] := by
  by_cases hq : ∀ o, s.hs.op = some o →
      o.stage ≠ .quiet ∨ s.hs.seq ≠ .waiting ∨ o.begun = false ∨ quietMet s = false
  · rw [hsMonitor_of_not hq, settle_of_nil h, h]
  · simp only [not_forall, not_or, ne_eq, not_not, Bool.not_eq_false] at hq
    obtain ⟨o, ho, hst, hw, hb, hm⟩ := hq
    rw [hsMonitor_of_met ho hst hw hb hm]
    have left : (s.report (.stageMet .quiet)).left (s.on .headConnected) ≤ 78 := by
      rw [left_of_acting (s := s.report _) ho (.inr hw), hst]
      exact chainLeft_quiet _ _ _
    have one : (s.report (.stageMet .quiet)).reports = [.stageMet .quiet] := by simp [State.report, h]
    refine settleWith_reports (n := 100) le_rfl ⟨rfl, fun st hst => ?_, ?_, fun p _ hr => ?_⟩
    · rw [one] at hst
      cases List.mem_singleton.1 hst
      rfl
    · rw [one]
      exact (Nat.add_le_add_left left 1).trans (by decide)
    · exact absurd (hw.symm.trans hr) (by decide)

end Sys2Proof.Machine
end

section
/-! PROOFS. Hydraulic arbiter: a change taken reaches the watch groups' readers and the arbiter. -/

namespace Sys2Proof.Machine

/-! ## The groups at a change (R12, R13) -/

/-- A group's mismatch set with the switches as given. -/
def Group.mismIn (d : SwitchSet) (g : Group) : SwitchSet := (d ^^^ g.pat) &&& g.sel

/-- A group goes from MATCH to MISMATCH. -/
def Group.turns (d : SwitchSet) (g : Group) : Bool := g.mism == 0 && g.mismIn d != 0

/-- A group evaluated again. -/
def Group.evaluated (d : SwitchSet) (g : Group) : Group :=
  { g with mism := g.mismIn d, flag := g.flag || g.turns d }

/-- A group after a change of a switch, which evaluates it if it selects the switch. -/
def Group.after (sw : Switch) (d : SwitchSet) (g : Group) : Group :=
  if inSet g.sel sw then g.evaluated d else g

/-- The change raises the group's event. -/
def Group.raises (sw : Switch) (d : SwitchSet) (g : Group) : Bool := inSet g.sel sw && g.turns d

section
variable {sw : Switch} {d : SwitchSet} {g : Group}

theorem Group.turns_iff : g.turns d = true ↔ g.mism = 0 ∧ g.mismIn d ≠ 0 := by simp [Group.turns]

theorem Group.turns_of_not (h : ¬(g.mism = 0 ∧ g.mismIn d ≠ 0)) : g.turns d = false :=
  Bool.eq_false_iff.2 (turns_iff.not.2 h)

theorem Group.evaluated_flag (h : g.turns d = true) : (g.evaluated d).flag = true := by
  rw [Group.evaluated, h, Bool.or_true]

theorem Group.after_of_selected (h : inSet g.sel sw = true) : g.after sw d = g.evaluated d := if_pos h

theorem Group.after_of_unselected (h : inSet g.sel sw = false) : g.after sw d = g := if_neg (by simp [h])

theorem Group.raises_of_selected (h : inSet g.sel sw = true) : g.raises sw d = g.turns d := by
  rw [Group.raises, h, Bool.true_and]

theorem Group.raises_of_unselected (h : inSet g.sel sw = false) : g.raises sw d = false := by
  rw [Group.raises, h, Bool.false_and]

theorem evalGroupOn_eq (n : GroupNo) (sw : Switch) (s : State) : evalGroupOn n sw s =
    (s.setGroup n ((s.group n).after sw s.sfe.debounced), (s.group n).raises sw s.sfe.debounced) := by
  by_cases h : inSet (s.group n).sel sw = true
  · rw [Group.after_of_selected h, Group.raises_of_selected h]
    exact if_pos h
  · have h := Bool.eq_false_iff.2 h
    have e : s.setGroup n (s.group n) = s := by cases n <;> rfl
    rw [Group.after_of_unselected h, Group.raises_of_unselected h, e]
    exact evalGroupOn_unselected h

end

/-- The front end with a change taken and the four groups evaluated (R1, R12). -/
def State.evaluated (sw : Switch) (on : Bool) (s : State) : State :=
  let d := putSwitch s.sfe.debounced sw on
  s.setSfe { s.sfe with
    debounced := d, stab := s.sfe.stab.set (switchIndex sw) none
    g0 := (s.group .g0).after sw d, g1 := (s.group .g1).after sw d, g2 := (s.group .g2).after sw d
    g3 := (s.group .g3).after sw d }

theorem takeChange_eq (sw : Switch) (on : Bool) (s : State) : takeChange sw on s =
    let d := putSwitch s.sfe.debounced sw on
    groupEvent ((s.group .g3).raises sw d) raiseGroup3
      (groupEvent ((s.group .g2).raises sw d) (cmGuard ((s.group .g2).after sw d).mism)
        (groupEvent ((s.group .g1).raises sw d) (ahaGuard ((s.group .g1).after sw d).mism)
          (groupEvent ((s.group .g0).raises sw d) (hsGuard ((s.group .g0).after sw d).mism)
            (settle (deliverSwitch sw on (s.evaluated sw on)))))) := by
  simp only [takeChange, evalGroupOn_eq]
  rfl

/-- The reader of a group's mismatch event (R13). -/
def GroupNo.event (n : GroupNo) (m : SwitchSet) : State → State :=
  match n with
  | .g0 => hsGuard m
  | .g1 => ahaGuard m
  | .g2 => cmGuard m
  | .g3 => raiseGroup3

section
variable {s t : State} {sw : Switch} {on b : Bool} {f : State → State}

theorem groupEvent_of_false (h : b = false) : groupEvent b f s = s := by rw [h]; rfl

theorem groupEvent_of_true (h : b = true) : groupEvent b f s = settle (f s) := by rw [h]; rfl

/-- An event whose reader does nothing. -/
theorem groupEvent_of_still (hr : s.reports = []) (h : b = true → f s = s) : groupEvent b f s = s := by
  cases b with
  | false => rfl
  | true => exact (congrArg settle (h rfl)).trans (settle_of_nil hr)

theorem unselected_of (h0 : inSet s.sfe.g0.sel sw = false) (h1 : inSet s.sfe.g1.sel sw = false)
    (h2 : inSet s.sfe.g2.sel sw = false) (h3 : inSet s.sfe.g3.sel sw = false) (n : GroupNo) :
    inSet (s.group n).sel sw = false := by
  cases n <;> assumption

/-- A change of a switch that one group selects: its readers, and then that group's (R3, R13). -/
theorem takeChange_of_one {n : GroupNo} (hn : inSet (s.group n).sel sw = true)
    (ho : ∀ k, k ≠ n → inSet (s.group k).sel sw = false) :
    let d := putSwitch s.sfe.debounced sw on
    takeChange sw on s = groupEvent ((s.group n).turns d) (n.event ((s.group n).mismIn d))
      (settle (deliverSwitch sw on ((s.changed sw on).setGroup n ((s.group n).evaluated d)))) := by
  intro d
  have hafter (k : GroupNo) :
      (s.group k).after sw d = if k = n then (s.group k).evaluated d else s.group k := by
    by_cases hk : k = n
    · rw [if_pos hk, Group.after_of_selected (hk ▸ hn)]
    · rw [if_neg hk, Group.after_of_unselected (ho k hk)]
  have hraises (k : GroupNo) :
      (s.group k).raises sw d = if k = n then (s.group k).turns d else false := by
    by_cases hk : k = n
    · rw [if_pos hk, Group.raises_of_selected (hk ▸ hn)]
    · rw [if_neg hk, Group.raises_of_unselected (ho k hk)]
  simp only [takeChange_eq, State.evaluated, d, hafter, hraises]
  cases n <;> rfl

/-- The same, with what the change's own readers come to. -/
theorem takeChange_of_only {n : GroupNo} (hn : inSet (s.group n).sel sw = true)
    (ho : ∀ k, k ≠ n → inSet (s.group k).sel sw = false)
    (ht : settle (deliverSwitch sw on ((s.changed sw on).setGroup n
      ((s.group n).evaluated (putSwitch s.sfe.debounced sw on)))) = t) :
    takeChange sw on s = groupEvent ((s.group n).turns (putSwitch s.sfe.debounced sw on))
      (n.event ((s.group n).mismIn (putSwitch s.sfe.debounced sw on))) t :=
  ht ▸ takeChange_of_one hn ho

/-- A change of a switch that groups 0 and 1 select: group 0's event is taken first (log 8). -/
theorem takeChange_of_two (h0 : inSet (s.group .g0).sel sw = true)
    (h1 : inSet (s.group .g1).sel sw = true) (h2 : inSet (s.group .g2).sel sw = false)
    (h3 : inSet (s.group .g3).sel sw = false) :
    let d := putSwitch s.sfe.debounced sw on
    takeChange sw on s = groupEvent (s.sfe.g1.turns d) (ahaGuard (s.sfe.g1.mismIn d))
      (groupEvent (s.sfe.g0.turns d) (hsGuard (s.sfe.g0.mismIn d)) (settle (deliverSwitch sw on
        (((s.changed sw on).setGroup .g0 (s.sfe.g0.evaluated d)).setGroup .g1
          (s.sfe.g1.evaluated d))))) := by
  simp only [takeChange_eq, State.evaluated, Group.raises_of_selected h0, Group.raises_of_selected h1,
    Group.raises_of_unselected h2, Group.raises_of_unselected h3, Group.after_of_selected h0,
    Group.after_of_selected h1, Group.after_of_unselected h2, Group.after_of_unselected h3]
  rfl

/-- The same, with what the change's own readers come to. -/
theorem takeChange_of_both (h0 : inSet s.sfe.g0.sel sw = true) (h1 : inSet s.sfe.g1.sel sw = true)
    (h2 : inSet s.sfe.g2.sel sw = false) (h3 : inSet s.sfe.g3.sel sw = false)
    (ht : settle (deliverSwitch sw on (((s.changed sw on).setGroup .g0
      (s.sfe.g0.evaluated (putSwitch s.sfe.debounced sw on))).setGroup .g1
        (s.sfe.g1.evaluated (putSwitch s.sfe.debounced sw on)))) = t) :
    takeChange sw on s = groupEvent (s.sfe.g1.turns (putSwitch s.sfe.debounced sw on))
      (ahaGuard (s.sfe.g1.mismIn (putSwitch s.sfe.debounced sw on)))
      (groupEvent (s.sfe.g0.turns (putSwitch s.sfe.debounced sw on))
        (hsGuard (s.sfe.g0.mismIn (putSwitch s.sfe.debounced sw on))) t) :=
  ht ▸ takeChange_of_two h0 h1 h2 h3

end

/-! ## What a change leaves of the rig's signals (R1) -/

theorem deliverSwitch_keeps {s0 s : State} {sw : Switch} {on : Bool} (h : Keeps s0 s) :
    Keeps s0 (deliverSwitch sw on s) := by
  have aims : Keeps s0 (if on then ahaSwitchOn sw s else s) := .ite (ahaSwitchOn_keeps h) h
  cases sw with
  | headConnected => exact hsHeadConnected_keeps (decideDepth_keeps h)
  | indexLocked =>
    have k : Keeps s0 (rrcLocked on s) := h.setRrc (by cases on <;> simp) (by cases on <;> simp)
    exact .ite (ahaLocked_keeps k) k
  | armHome => exact loaderTest_keeps aims
  | _ => exact aims

theorem lcService_sfe (s : State) : (lcService s).sfe = s.sfe := by
  fun_cases lcService <;> rfl

theorem takeChange_keeps (sw : Switch) (on : Bool) (s : State) :
    Keeps (s.changed sw on) (takeChange sw on s) := by
  have k : Keeps (s.changed sw on) (s.evaluated sw on) := (Keeps.refl (s.changed sw on)).setSfe rfl
  have event {b : Bool} {f : State → State} (hf : ∀ {s t}, Keeps s t → Keeps s (f t)) {u : State}
      (hu : Keeps (s.changed sw on) u) : Keeps (s.changed sw on) (groupEvent b f u) := by
    unfold groupEvent
    split
    · exact settle_keeps (hf hu)
    · exact hu
  rw [takeChange_eq]
  exact event Keeps.raise (event cmGuard_keeps (event ahaGuard_keeps
    (event hsGuard_keeps (settle_keeps (deliverSwitch_keeps k)))))

/-- Whatever a change does, the switches stand as it took them (R1). -/
theorem takeChange_input {α : Type} (p : Sfe → α) (hp : ∀ f, p f.inputs = p f) (sw : Switch)
    (on : Bool) (s : State) : p (finish (takeChange sw on s)).sfe = p (s.changed sw on).sfe := by
  rw [finish, lcService_sfe]
  exact (settle_keeps (takeChange_keeps sw on s)).input p hp

/-! ## The readers (R3, R37, R39, R72, R92) -/

section
variable {s : State} {sw : Switch} {m : SwitchSet}

theorem deliverSwitch_of_plain (h : sw ≠ .headConnected ∧ sw ≠ .indexLocked ∧ sw ≠ .armHome) (on : Bool) :
    deliverSwitch sw on s = if on then ahaSwitchOn sw s else s := by
  obtain ⟨h1, h2, h3⟩ := h
  cases sw <;> first | rfl | contradiction

theorem ahaSwitchOn_of_aim {r : Req} (hr : s.aha.holder = some r)
    (ht : r.target = .switch sw ∨ r.target = .jog (some sw)) :
    ahaSwitchOn sw s = endHolder (.complete r r.metEnd) s := by
  rw [ahaSwitchOn, hr]
  exact if_pos (by rcases ht with ht | ht <;> simp [Req.aimsAt, ht])

theorem hsGuard_of_other (h : s.hs.op = none ∨ (s.hs.seq ≠ .running ∧ s.hs.seq ≠ .waiting)) :
    hsGuard m s = s := by
  refine if_neg ?_
  rcases h with h | ⟨h1, h2⟩ <;> simp [Hs.acts, *]

theorem hsGuard_of_op {o : OpRec} (ho : s.hs.op = some o)
    (h : s.hs.seq = .running ∨ s.hs.seq = .waiting) : hsGuard m s =
      (withdraw .handling (s.setHs
        { s.hs with seq := .held, cause := some (.held .guard (some m)), stall := none })).raise
          (.opHeld o.op o.stage .guard (some m)) := by
  rw [← holdOp_of_op ho]
  exact if_pos ((acts_iff ho).2 h)

theorem ahaGuard_of_other (h : s.aha.holder = none ∨ ∀ dir, s.aha.valve ≠ some (.index, dir)) :
    ahaGuard m s = s := by
  unfold ahaGuard
  split
  · next r dir hr hv => exact (h.elim (fun e => by simp [e] at hr) fun e => e dir hv).elim
  · rfl

theorem ahaGuard_of_index {r : Req} {dir : Dir} (hr : s.aha.holder = some r)
    (hv : s.aha.valve = some (.index, dir)) : ahaGuard m s = endHolder (.failed r .guard m) s := by
  simp only [ahaGuard, hr, hv]

/-- Group 0's event with nothing of the sequencer's to stop (R92). -/
theorem groupEvent_hsGuard_of_still {d : SwitchSet} {g : Group} (hrep : s.reports = [])
    (h : ¬(g.mism = 0 ∧ g.mismIn d ≠ 0) ∨ s.hs.op = none ∨ (s.hs.seq ≠ .running ∧ s.hs.seq ≠ .waiting)) :
    groupEvent (g.turns d) (hsGuard m) s = s :=
  groupEvent_of_still hrep fun ht => hsGuard_of_other (h.resolve_left (not_not.2 (Group.turns_iff.1 ht)))

/-- Group 1's event with no index motion driven (R72). -/
theorem groupEvent_ahaGuard_of_still {d : SwitchSet} {g : Group} (hrep : s.reports = [])
    (h : ¬(g.mism = 0 ∧ g.mismIn d ≠ 0) ∨ s.aha.holder = none ∨ ∀ dir, s.aha.valve ≠ some (.index, dir)) :
    groupEvent (g.turns d) (ahaGuard m) s = s :=
  groupEvent_of_still hrep fun ht => ahaGuard_of_other (h.resolve_left (not_not.2 (Group.turns_iff.1 ht)))

/-- Group 1's event fails the index motion that runs (R72, R93). -/
theorem groupEvent_ahaGuard_of_index {d : SwitchSet} {g : Group} {r : Req} {dir : Dir}
    (h : g.mism = 0 ∧ g.mismIn d ≠ 0) (hr : s.aha.holder = some r)
    (hv : s.aha.valve = some (.index, dir)) :
    groupEvent (g.turns d) (ahaGuard m) s = settle (endHolder (.failed r .guard m) s) := by
  rw [groupEvent_of_true (Group.turns_iff.2 h), ahaGuard_of_index hr hv]

theorem cmGuard_of_other (h1 : s.cm.mon ≠ .watchEntry) (h2 : s.cm.mon ≠ .holeWatch) :
    cmGuard m s = s := by
  unfold cmGuard
  split <;> first | rfl | contradiction

theorem cmGuard_of_holeWatch (h : s.cm.mon = .holeWatch) : cmGuard m s = s.raise (.driftSwitch m) := by
  rw [cmGuard, h]

theorem cmGuard_of_watchEntry (h : s.cm.mon = .watchEntry) : cmGuard m s = abortEntry .switch s := by
  rw [cmGuard, h]

end

/-- An entry aborted where group 2's flag is set (R35, R37). -/
theorem abortEntry_of_flag {s : State} {cause : AbortCause} (h : s.sfe.g2.flag = true) :
    abortEntry cause s = hsMonitor (((s.setSfe { s.sfe with g2 := ⟨0, 0, 0, true⟩ }).setCm
      { s.cm with
        mon := .idle, span := [], secPulses := 0, capTimer := none, capSum := 0, capCount := 0
        entryVol := 0 }).raise (.entryAborted cause)) := by
  rw [abortEntry_eq, h]

/-! ## An index motion that stands alone (R68, R70, R72, R93) -/

section
variable {s : State} {r : Req} (hr : s.aha.holder = some r) (hf : r.fn = .index)
  (hs : s.aha.stack = []) (hw : s.aha.waiting = [])
include hr hf hs hw

theorem stopHolder_of_index_alone : stopHolder s =
    (s.setSfe { s.sfe with g1 := ⟨0, 0, 0, s.sfe.g1.flag⟩ }).setAha ⟨none, [], [], none⟩ := by
  simp only [stopHolder, hr, hf, if_true, disarmGroup_eq, State.setGroup_aha, hs, hw]
  rfl

theorem withdraw_of_index_alone (hc : r.client = .handling) : withdraw .handling s =
    (s.setSfe { s.sfe with g1 := ⟨0, 0, 0, s.sfe.g1.flag⟩ }).setAha ⟨none, [], [], none⟩ := by
  rw [withdraw, if_pos (holds_iff.2 ⟨r, hr, hc⟩), stopHolder_of_index_alone hr hf hs hw]
  exact passOn_of_none rfl rfl

theorem settle_withdrawn_raise (hrep : s.reports = []) (hc : r.client = .handling) (x : Detail) :
    settle ((withdraw .handling s).raise x) =
      ((s.setSfe { s.sfe with g1 := ⟨0, 0, 0, s.sfe.g1.flag⟩ }).setAha ⟨none, [], [], none⟩).raise x := by
  rw [withdraw_of_index_alone hr hf hs hw hc]
  exact settle_of_nil hrep

theorem endHolder_of_index_alone (rep : Report) : endHolder rep s =
    ((s.setSfe { s.sfe with g1 := ⟨0, 0, 0, s.sfe.g1.flag⟩ }).setAha ⟨none, [], [], none⟩).report rep := by
  rw [endHolder, stopHolder_of_index_alone hr hf hs hw]
  exact passOn_of_none rfl rfl

end

/-- The index motion of an operation that runs, alone with the arbiter, fails by its guard (R72, R93). -/
theorem settle_index_failed {s : State} {r : Req} {o : OpRec} {m : SwitchSet} (hrep : s.reports = [])
    (hr : s.aha.holder = some r) (hf : r.fn = .index) (hs : s.aha.stack = []) (hw : s.aha.waiting = [])
    (hc : r.client = .handling) (ho : s.hs.op = some o) (hq : s.hs.seq = .running)
    (hg : s.sfe.g1.flag = true) : settle (endHolder (.failed r .guard m) s) =
      (((s.setSfe { s.sfe with g1 := ⟨0, 0, 0, true⟩ }).setAha ⟨none, [], [], none⟩).setHs
        { s.hs with seq := .held, cause := some (.held .carousel (some m)), stall := none }).raise
          (.opHeld o.op o.stage .carousel (some m)) := by
  rw [endHolder_of_index_alone hr hf hs hw, hg]
  let u := (s.setSfe { s.sfe with g1 := ⟨0, 0, 0, true⟩ }).setAha ⟨none, [], [], none⟩
  let v := u.setHs { u.hs with seq := .held, cause := some (.held .carousel (some m)), stall := none }
  have hu : hsMotionFailed r .guard m u = holdOp .carousel (some m) u := if_neg (by simp [u, hq])
  have ht : takeReport (.failed r .guard m) u = v.raise (.opHeld o.op o.stage .carousel (some m)) := by
    calc takeReport (.failed r .guard m) u = hsMotionFailed r .guard m u := by simp only [takeReport, hc]
      _ = (withdraw .handling v).raise (.opHeld o.op o.stage .carousel (some m)) :=
        hu.trans (holdOp_of_op (u := u) ho _ _)
      _ = v.raise (.opHeld o.op o.stage .carousel (some m)) :=
        congrArg (State.raise · _) (withdraw_of_other (u := v) fun _ h => by cases h)
  exact (settle_report (u := u) hrep (by rw [ht]; exact hrep)).trans ht

/-! ## ARM HOME taken off (R58) -/

theorem inSet_putSwitch_off (x : SwitchSet) (sw : Switch) : inSet (putSwitch x sw false) sw = false := by
  cases sw <;> simp [inSet, putSwitch, switchMask, switchBit, switchIndex]

/-- The loader's request, where it does not hold the grant, goes back to waiting as ARM HOME goes off. -/
def State.loaderBack (sw : Switch) (u : State) : State :=
  match u.rrc.loader with
  | none => u
  | some o =>
    if sw = .armHome ∧ o.phase = .requested ∧ u.aha.stands .loader = true
        ∧ u.aha.holds .loader = false then
      (u.setRrc { u.rrc with loader := some { o with phase := .waiting } }).setAha
        { u.aha with
          stack := u.aha.stack.filter (fun r => r.client != .loader)
          waiting := u.aha.waiting.filter (fun r => r.client != .loader) }
    else u

section
variable {sw : Switch} {u : State}

theorem loaderBack_of_plain (h : sw ≠ .armHome) : u.loaderBack sw = u := by
  unfold State.loaderBack
  split
  · rfl
  · exact if_neg fun hc => h hc.1

theorem loaderBack_of_absent (h : u.aha.stands .loader = false) : u.loaderBack sw = u := by
  unfold State.loaderBack
  split
  · rfl
  · exact if_neg (by simp [h])

theorem loaderBack_holder : (u.loaderBack sw).aha.holder = u.aha.holder := by
  unfold State.loaderBack
  split
  · rfl
  · split <;> rfl

theorem loaderBack_valve : (u.loaderBack sw).aha.valve = u.aha.valve := by
  unfold State.loaderBack
  split
  · rfl
  · split <;> rfl

theorem loaderBack_reports : (u.loaderBack sw).reports = u.reports := by
  unfold State.loaderBack
  split
  · rfl
  · split <;> rfl

/-- The loader's test with ARM HOME off, the carousel not held while it has the grant. -/
theorem loaderTest_of_away (ha : u.on .armHome = false)
    (hh : u.rrc.hold = false ∨ u.aha.holds .loader = false) : loaderTest u = u.loaderBack .armHome := by
  have hm : ¬loaderMay u = true := by simp [loaderMay, ha]
  cases ho : u.rrc.loader with
  | none => rw [loaderTest_of_none ho, State.loaderBack, ho]
  | some o =>
    rw [State.loaderBack, ho]
    cases hp : o.phase with
    | waiting =>
      rw [loaderTest_waiting ho hp, if_neg hm]
      simp [hp]
    | requested =>
      rw [loaderTest_requested ho hp, if_neg hm]
      by_cases hl : u.aha.holds .loader = true
      · have hf : u.rrc.hold = false := hh.resolve_right (by simp [hl])
        simp [hl, hf]
      · have hl := Bool.eq_false_iff.2 hl
        have hw : withdraw .loader (u.setRrc { u.rrc with loader := some { o with phase := .waiting } }) =
            (u.setRrc { u.rrc with loader := some { o with phase := .waiting } }).setAha
              { u.aha with
                stack := u.aha.stack.filter (fun r => r.client != .loader)
                waiting := u.aha.waiting.filter (fun r => r.client != .loader) } :=
          if_neg (by simp [hl])
        simp only [hp, hl, hw, Bool.not_false, Bool.true_or, Bool.and_true, true_and, and_true]

/-- A switch taken off whose readers are the groups, or ARM HOME (R3, R58). -/
theorem deliverSwitch_off (h : (sw ≠ .headConnected ∧ sw ≠ .indexLocked ∧ sw ≠ .armHome)
      ∨ (sw = .armHome ∧ (u.rrc.hold = false ∨ u.aha.holds .loader = false)))
    (ho : u.on sw = false) : deliverSwitch sw false u = u.loaderBack sw := by
  rcases h with h | ⟨rfl, h⟩
  · rw [loaderBack_of_plain h.2.2]
    exact deliverSwitch_of_plain h false
  · exact loaderTest_of_away ho h

end

@[simp] theorem elapse_holds (a : Aha) (dt : Nat) (c : Client) : (a.elapse dt).holds c = a.holds c := by
  simp only [Aha.holds, Aha.elapse]
  cases a.holder <;> rfl

/-- Settles O46: a change by the groups that select its switch, and what each of their readers does. -/
theorem takenChangesReachTheirReaders : Obligations.TakenChangesReachTheirReaders := by
  intro dt sw s hs h
  have hrep : h.reports = [] := (State.elapse_reports dt s).trans hs.2
  have haha : h.aha = s.aha.elapse dt := elapse_aha_of_on hs.1
  rw [show s.sfe.raw = h.sfe.raw by simp [h], show s.sfe.g0 = h.sfe.g0 by simp [h],
    show s.sfe.g1 = h.sfe.g1 by simp [h], show s.sfe.g2 = h.sfe.g2 by simp [h],
    show s.sfe.g3 = h.sfe.g3 by simp [h], show s.rrc = h.rrc by simp [h],
    show s.hs.op = h.hs.op by simp [h], show s.hs.seq = h.hs.seq by simp [h],
    show s.cm.mon = h.cm.mon by simp [h], show s.aha.stack = h.aha.stack by simp [h],
    show s.aha.waiting = h.aha.waiting by simp [h], show s.aha.valve = h.aha.valve by simp [h],
    show s.aha.stands .loader = h.aha.stands .loader by rw [haha, elapse_stands],
    show s.aha.holds .loader = h.aha.holds .loader by rw [haha, elapse_holds]]
  intro c on due d f plain mism taken loaderOff
  have hdue : h.sfe.changeDue sw = true ↔ due := by
    simp [Sfe.changeDue, Sfe.timerOf, Timer.over, due, on, and_assoc]
  have run (hd : due) {t : State} (e : takeChange sw on h = t) : c = .next (finish t) := by
    exact congrArg Host.Outcome.next (event_finish hs ((if_pos (hdue.2 hd)).trans e))
  have quiet (hd : due) {t : State} (e : takeChange sw on h = t) (ht : t.reports = []) :
      c = .next (lcService t) := by
    rw [run hd e, finish_of_nil ht]
  have off {u : State} (hon : on = false) (hp : plain ∨ (sw = .armHome
        ∧ (u.rrc.hold = false ∨ u.aha.holds .loader = false)))
      (hu : u.sfe.debounced = d) (hr : u.reports = []) :
      settle (deliverSwitch sw on u) = u.loaderBack sw := by
    have ho : u.on sw = false := by
      rw [State.on, hu]
      simp only [d, hon, inSet_putSwitch_off]
    rw [hon, deliverSwitch_off hp ho]
    exact settle_of_nil (loaderBack_reports.trans hr)
  have plainOff {u : State} (hon : on = false) (hp : plain) (hu : u.sfe.debounced = d)
      (hr : u.reports = []) : settle (deliverSwitch sw on u) = u :=
    (off hon (.inl hp) hu hr).trans (loaderBack_of_plain hp.2.2)
  have aims {u : State} (hon : on = true) (hp : plain) : deliverSwitch sw on u = ahaSwitchOn sw u :=
    (deliverSwitch_of_plain hp on).trans (if_pos hon)
  refine ⟨fun hn => ?_, fun hd => ⟨_, run hd rfl, ?_⟩,
    fun hd hp h0 h1 h2 => ⟨fun hon h3 => ?_, fun hon h3 => ?_,
      fun r hon h3 hr => ⟨fun ht => ?_, fun ht1 ht2 => ?_⟩⟩,
    fun hd hp hon h0 h1 h2 h3 => ?_, fun hd hp h0 h1 h2 h3 hr => ?_,
    fun o hd hp hon h0 h1 h2 h3 hm0 hm ho hq => ⟨?_, ?_⟩⟩
  -- No change is due, and what a change takes.
  · exact congrArg Host.Outcome.next (event_quiet hs (if_neg (hdue.not.2 hn)) (State.elapse_reports dt s))
  · have input {α : Type} (p : Sfe → α) (hp : ∀ f, p f.inputs = p f) := takeChange_input p hp sw on h
    exact ⟨input Sfe.debounced fun _ => rfl, input Sfe.raw fun _ => rfl, input Sfe.acquired fun _ => rfl,
      input Sfe.stab fun _ => rfl⟩
  -- No group's event: nothing, GROUP MISMATCH, or the motion whose target the switch is.
  · exact quiet hd ((takeChange_unselected (unselected_of h0 h1 h2 h3)).trans
      (plainOff hon hp rfl hrep)) hrep
  · intro t
    have one := takeChange_of_only (on := on) (n := .g3) h3
      (fun | .g0, _ => h0 | .g1, _ => h1 | .g2, _ => h2 | .g3, hk => (hk rfl).elim)
      (plainOff (u := t) hon hp rfl hrep)
    by_cases ht : h.sfe.g3.mism = 0 ∧ mism h.sfe.g3 ≠ 0
    · rw [if_pos ht]
      exact quiet hd ((one.trans (groupEvent_of_true (Group.turns_iff.2 ht))).trans
        (settle_of_nil hrep)) hrep
    · rw [if_neg ht]
      exact quiet hd (one.trans (groupEvent_of_false (Group.turns_of_not ht))) hrep
  · have aim := (aims hon hp (u := h.setSfe f)).trans (ahaSwitchOn_of_aim hr ht)
    exact run hd ((takeChange_unselected (unselected_of h0 h1 h2 h3)).trans (congrArg settle aim))
  · have other := (aims hon hp (u := h.setSfe f)).trans (ahaSwitchOn_of_other fun q hq => by
      obtain rfl : r = q := Option.some.inj (hr.symm.trans hq)
      exact ⟨ht1, ht2⟩)
    exact quiet hd (((takeChange_unselected (unselected_of h0 h1 h2 h3)).trans
      (congrArg settle other)).trans (settle_of_nil hrep)) hrep
  -- Group 1's event, after ARM HOME's own reader.
  · intro m t
    let u := h.setSfe { f with g1 := taken h.sfe.g1 }
    have ht : t = u.loaderBack sw := rfl
    have hrt : t.reports = [] := ht ▸ loaderBack_reports.trans hrep
    have htr : t.aha.holder = h.aha.holder := ht ▸ loaderBack_holder
    have htv : t.aha.valve = h.aha.valve := ht ▸ loaderBack_valve
    have one := takeChange_of_only (on := on) (n := .g1) h1
      (fun | .g0, _ => h0 | .g1, hk => (hk rfl).elim | .g2, _ => h2 | .g3, _ => h3)
      (off (u := u) hon hp rfl hrep)
    refine ⟨fun hno => quiet hd (one.trans (groupEvent_ahaGuard_of_still hrt ?_)) hrt,
      fun r dir h1m hm hr hv => ?_⟩
    · rw [← ht, htr, htv, not_and_or, not_not, or_assoc]
      exact hno
    · have fails : takeChange sw on h = settle (endHolder (.failed r .guard m) t) :=
        one.trans (groupEvent_ahaGuard_of_index ⟨h1m, hm⟩ (htr.trans hr) (htv.trans hv))
      refine ⟨run hd fails, fun o hf hc hs hw ho hq => ?_⟩
      have absent : t = u := ht.trans (loaderBack_of_absent (by
        rw [show u.aha = h.aha from rfl]
        simp [Aha.stands, Aha.standing, hr, hs, hw, hc]))
      have held := settle_index_failed (s := u) (m := m) hrep hr hf hs hw hc ho hq
        (Group.evaluated_flag (Group.turns_iff.2 ⟨h1m, hm⟩))
      exact quiet hd (fails.trans ((congrArg (fun v => settle (endHolder _ v)) absent).trans held)) hrep
  -- Group 2's event; an entry aborted lets QUIET go on, which the step takes to its end.
  · intro m t
    have still : settle (deliverSwitch sw on t) = t := by
      rw [deliverSwitch_of_plain hp]
      split
      · exact (congrArg settle (ahaSwitchOn_of_other (s := t) hr)).trans (settle_of_nil hrep)
      · exact settle_of_nil hrep
    have one := takeChange_of_only (on := on) (n := .g2) h2
      (fun | .g0, _ => h0 | .g1, _ => h1 | .g2, hk => (hk rfl).elim | .g3, _ => h3)
      still
    have fires (h2m : h.sfe.g2.mism = 0) (hm : m ≠ 0) : takeChange sw on h = settle (cmGuard m t) :=
      one.trans (groupEvent_of_true (Group.turns_iff.2 ⟨h2m, hm⟩))
    refine ⟨fun hno => quiet hd (one.trans (groupEvent_of_false (Group.turns_of_not ?_))) hrep,
      fun h2m hm => ⟨fun hm1 hm2 => ?_, fun hmon => ?_, fun hmon => ?_⟩⟩
    · exact fun ⟨h2m, hm⟩ => hno.elim (· h2m) hm
    · exact quiet hd (((fires h2m hm).trans (congrArg settle (cmGuard_of_other hm1 hm2))).trans
        (settle_of_nil hrep)) hrep
    · exact quiet hd (((fires h2m hm).trans (congrArg settle (cmGuard_of_holeWatch hmon))).trans
        (settle_of_nil hrep)) hrep
    · have flag : (taken h.sfe.g2).flag = true := Group.evaluated_flag (Group.turns_iff.2 ⟨h2m, hm⟩)
      have aborted := ((fires h2m hm).trans (congrArg settle (cmGuard_of_watchEntry hmon))).trans
        (congrArg settle (abortEntry_of_flag flag))
      exact (run hd aborted).trans (congrArg (fun v => Host.Outcome.next (lcService v))
        (settle_of_nil (settle_hsMonitor_reports hrep)))
  -- Group 0's event alone, and with group 1's after it.
  · have one := takeChange_of_only (on := on) (n := .g0) h0
      (fun | .g0, hk => (hk rfl).elim | .g1, _ => h1 | .g2, _ => h2 | .g3, _ => h3)
      (plainOff (u := h.setSfe { f with g0 := taken h.sfe.g0 }) hon hp rfl hrep)
    exact run hd ((one.trans (groupEvent_of_true (Group.turns_iff.2 ⟨hm0, hm⟩))).trans
      (congrArg settle (hsGuard_of_op ho hq)))
  · intro hd hp hon h0 h1 h2 h3 m0 m held0 fails t
    have two := takeChange_of_both (on := on) h0 h1 h2 h3 (plainOff (u := t) hon hp rfl hrep)
    refine ⟨fun hno => ?_, fun o hheld ho hq => ?_⟩
    · have still : takeChange sw on h = groupEvent (h.sfe.g1.turns d) (ahaGuard m) t :=
        two.trans (congrArg (groupEvent _ _) (groupEvent_hsGuard_of_still hrep hno))
      exact ⟨fun hno => quiet hd (still.trans (groupEvent_ahaGuard_of_still hrep hno)) hrep,
        fun r dir hf hr hv => run hd (still.trans (groupEvent_ahaGuard_of_index hf hr hv))⟩
    · intro u
      have held : takeChange sw on h = groupEvent (h.sfe.g1.turns d) (ahaGuard m) u :=
        two.trans (congrArg (groupEvent _ _) ((groupEvent_of_true (Group.turns_iff.2 hheld)).trans
          (congrArg settle (hsGuard_of_op ho hq))))
      have fired (hf : fails) : takeChange sw on h = settle (ahaGuard m u) :=
        held.trans (groupEvent_of_true (Group.turns_iff.2 hf))
      refine ⟨fun hf => run hd (held.trans (groupEvent_of_false (Group.turns_of_not hf))),
        fun hf hno => run hd ((fired hf).trans (congrArg settle (ahaGuard_of_other hno))),
        fun r dir hf hr hv => run hd (held.trans (groupEvent_ahaGuard_of_index hf hr hv)),
        fun r hr hf hc hs hw => ?_⟩
      have alone : u = _ := settle_withdrawn_raise (s := t.setHs
        { h.hs with seq := .held, cause := some (.held .guard (some m0)), stall := none })
        hr hf hs hw hrep hc _
      refine quiet hd (held.trans ?_) hrep
      rw [alone]
      exact groupEvent_of_still hrep fun _ => ahaGuard_of_other (.inl rfl)

end Sys2Proof.Machine
end

section
/-! PROOFS. Handling: how a trip begins and goes on, and START TRIP. -/

namespace Sys2Proof.Machine

/-! ## The operation and the end reason of a trip's direction (R97, R98) -/

section
variable {d : TripDir} {op : Op}

/-- A direction's operation and the reason that a failed slot choice ends its trip with. -/
theorem op_noChoice_of_dir {fails : TripEnd}
    (h : (d = .out ∧ op = .removeRod ∧ fails = .carouselFull)
      ∨ (d = .inward ∧ op = .addRod ∧ fails = .noRod)) : op = d.op ∧ fails = d.noChoice := by
  rcases h with ⟨rfl, rfl, rfl⟩ | ⟨rfl, rfl, rfl⟩ <;> exact ⟨rfl, rfl⟩

/-- A direction code, with the operation and the most rods of its direction. -/
theorem ofCode_op_limit {b : Byte} {n top : Nat}
    (h : (b = 1 ∧ d = .out ∧ op = .removeRod ∧ top = n)
      ∨ (b = 2 ∧ d = .inward ∧ op = .addRod ∧ top = 128 - n)) :
    TripDir.ofCode b = some d ∧ op = d.op ∧ top = tripLimit d n := by
  rcases h with ⟨rfl, rfl, rfl, rfl⟩ | ⟨rfl, rfl, rfl, rfl⟩ <;> exact ⟨rfl, rfl, rfl⟩

theorem TripDir.ofCode_of_other {b : Byte} (h1 : b ≠ 1) (h2 : b ≠ 2) : TripDir.ofCode b = none :=
  (if_neg h1).trans (if_neg h2)

end

/-! ## How a trip goes on (R98) -/

section
variable {u : State} {t : TripRec} (ht : u.hs.trip = some t)
include ht

theorem tripNext_of_stop (h : t.stop = true) : tripNext u = endTrip .stopped u := by
  rw [tripNext, ht]
  exact if_pos h

variable (h : t.stop = false)
include h

theorem tripNext_of_gain (hg : u.cm.gainLatch ≠ none) :
    tripNext u = u.setHs { u.hs with seq := .waiting } := by
  rw [tripNext, ht]
  exact (if_neg (by simp [h])).trans (if_pos (Option.isSome_iff_ne_none.2 hg))

variable (hg : u.cm.gainLatch = none)
include hg

theorem tripNext_of_no_choice {why : Reason} (hc : u.rrc.choose t.dir.op none = .error why) :
    tripNext u = endTrip t.dir.noChoice u := by
  rw [tripNext, ht]
  refine (if_neg (by simp [h])).trans ((if_neg (by simp [hg])).trans ?_)
  rw [hc]

theorem tripNext_of_choice {k i : Nat} (hc : u.rrc.choose t.dir.op none = .ok (k, i)) :
    tripNext u = startOp t.dir.op k i true (u.setRrc (u.rrc.reserveFor t.dir.op k i)) := by
  rw [tripNext, ht]
  refine (if_neg (by simp [h])).trans ((if_neg (by simp [hg])).trans ?_)
  rw [hc]

end

/-- The trip record with its done count as given (R97). -/
def State.tripAt (t : TripRec) (n : Nat) (u : State) : State :=
  u.setHs { u.hs with trip := some { t with done := n } }

theorem tripAt_of_trip {u : State} {t : TripRec} (ht : u.hs.trip = some t) : u.tripAt t t.done = u := by
  rw [State.tripAt, ← ht]
  rfl

/-- The done count rises, and the trip ends with COUNT or goes on (R98). -/
theorem tripContinue_of_trip {u : State} {t : TripRec} (ht : u.hs.trip = some t) : tripContinue u =
    if t.done + 1 = t.count then endTrip .count (u.tripAt t (t.done + 1))
    else tripNext (u.tripAt t (t.done + 1)) := by
  rw [tripContinue, ht]
  rfl

theorem tripActive_iff {h : Hs} : h.tripActive = true ↔ ∃ t, h.trip = some t ∧ t.ended = none := by
  unfold Hs.tripActive
  cases h.trip <;> simp

/-! ## The clearing of the GAIN latch (R81, R90, R98) -/

section
variable {u : State}

theorem hsGainCleared_of_no_op (hw : u.hs.seq = .waiting) (ho : u.hs.op = none) :
    hsGainCleared u = if u.hs.tripActive then tripNext u else u := by
  rw [hsGainCleared, if_neg (by simp [hw]), ho]

theorem hsGainCleared_of_begun {o : OpRec} (hw : u.hs.seq = .waiting) (ho : u.hs.op = some o)
    (hb : o.begun = true) : hsGainCleared u = hsMonitor u := by
  rw [hsGainCleared, if_neg (by simp [hw]), ho]
  exact if_pos hb

end

/-! ## START TRIP (R97) -/

section
variable {s : State} {b : Byte} {n : Nat}

theorem ownStartTrip_of_busy (h : s.hs.seq ≠ .idle) : ownStartTrip b n s = refused .busy s :=
  if_pos (by simpa using h)

variable (hq : s.hs.seq = .idle)
include hq

theorem ownStartTrip_of_arm (ha : s.rrc.arm ≠ none) : ownStartTrip b n s = refused .armOccupied s :=
  (if_neg (by simp [hq])).trans (if_pos (Option.isSome_iff_ne_none.2 ha))

variable (ha : s.rrc.arm = none)
include ha

theorem ownStartTrip_of_no_dir (hb : TripDir.ofCode b = none) : ownStartTrip b n s = refused .range s := by
  rw [ownStartTrip, if_neg (by simp [hq]), if_neg (by simp [ha]), hb]

variable {d : TripDir} (hb : TripDir.ofCode b = some d)
include hb

theorem ownStartTrip_of_range (h : n < 1 ∨ 128 < n ∨ tripLimit d s.rrc.string.length < n) :
    ownStartTrip b n s = refused .range s := by
  rw [ownStartTrip, if_neg (by simp [hq]), if_neg (by simp [ha]), hb]
  exact if_pos h

variable (hn : 1 ≤ n ∧ n ≤ 128 ∧ n ≤ tripLimit d s.rrc.string.length)
include hn

theorem ownStartTrip_of_no_choice {why : Reason} (hc : s.rrc.choose d.op none = .error why) :
    ownStartTrip b n s = refused why s := by
  have hout : ¬(n < 1 ∨ Config.stringTop < n ∨ tripLimit d s.rrc.string.length < n) := by
    simp only [Config.stringTop]
    omega
  rw [ownStartTrip, if_neg (by simp [hq]), if_neg (by simp [ha]), hb]
  refine (if_neg hout).trans ?_
  rw [hc]

theorem ownStartTrip_of_choice {k i : Nat} (hc : s.rrc.choose d.op none = .ok (k, i)) :
    ownStartTrip b n s = startReply d.op k i true
      (s.setHs { s.hs with trip := some ⟨d, n, 0, false, s.now, none⟩ }) := by
  have hout : ¬(n < 1 ∨ Config.stringTop < n ∨ tripLimit d s.rrc.string.length < n) := by
    simp only [Config.stringTop]
    omega
  rw [ownStartTrip, if_neg (by simp [hq]), if_neg (by simp [ha]), hb]
  refine (if_neg hout).trans ?_
  rw [hc]

end

/-- Settles O33: START TRIP by its checks, a trip that goes on by its steps, and the GAIN latch's
clearing. -/
theorem aTripStartsItsFirstOperation : Obligations.ATripStartsItsFirstOperation := by
  refine ⟨?_, ?_, ?_, fun op k i trip u => rfl⟩
  · intro dt tag d n s hs h
    rw [show s.rrc = h.rrc from heard_rrc.symm, show s.tps.clock = h.now from heard_now.symm,
      show s.hs.seq = h.hs.seq by simp [h, State.heard]]
    intro c r refuse
    have same {why : Reason} (e : ownStartTrip d n.toNat h = refused why h) : refuse why :=
      congrArg _ (requestRow_unchanged (r := r) hs (congrArg withStatus e))
    refine ⟨fun hq => same (ownStartTrip_of_busy hq), fun hq ha => same (ownStartTrip_of_arm hq ha),
      fun hq ha => ⟨fun h1 h2 => same (ownStartTrip_of_no_dir hq ha (TripDir.ofCode_of_other h1 h2)),
        fun dir op top hdir => ?_⟩⟩
    obtain ⟨hb, rfl, rfl⟩ := ofCode_op_limit hdir
    refine ⟨fun hn => same (ownStartTrip_of_range hq ha hb hn), fun h1 h2 h3 =>
      ⟨fun why hc => same (ownStartTrip_of_no_choice hq ha hb ⟨h1, h2, h3⟩ hc), fun k i hc => ?_⟩⟩
    intro u
    have e : own r h = (u, .accept (be 1 k ++ serialBytes (h.rrc.serialOf i) ++ handlingStatus u)) :=
      congrArg withStatus (ownStartTrip_of_choice hq ha hb ⟨h1, h2, h3⟩ hc)
    exact congrArg _ (requestRow_replying_keeps hs e (settle_keeps
      (startOp_keeps ((Keeps.refl h).setHs.setRrc rfl (List.length_set ..)))))
  · intro u t ht ends goesOn
    have at_ (n : Nat) : (u.tripAt t n).hs.trip = some { t with done := n } := rfl
    have stops (n : Nat) (why : TripEnd) : endTrip why (u.tripAt t n) = ends n why :=
      endTrip_of_trip (at_ n) why
    have next (n : Nat) : goesOn n (tripNext (u.tripAt t n)) := by
      have hn := at_ n
      refine ⟨fun h => (tripNext_of_stop hn h).trans (stops n _), fun h hg => tripNext_of_gain hn h hg,
        fun op fails h hg hd => ?_⟩
      obtain ⟨rfl, rfl⟩ := op_noChoice_of_dir hd
      exact ⟨fun why hc => (tripNext_of_no_choice hn h hg hc).trans (stops n _),
        fun k i hc => tripNext_of_choice hn h hg hc⟩
    have now : goesOn t.done (tripNext u) := by
      simpa only [tripAt_of_trip ht] using next t.done
    refine ⟨fun hc => ?_, fun hc => ?_, now, fun hw ho he => ?_⟩
    · rw [tripContinue_of_trip ht, if_pos hc]
      exact stops (t.done + 1) .count
    · rw [tripContinue_of_trip ht, if_neg hc]
      exact next _
    · rw [hsGainCleared_of_no_op hw ho, if_pos (tripActive_iff.2 ⟨t, ht, he⟩)]
      exact now
  · intro u
    refine ⟨hsGainCleared_of_not_waiting, fun ho hn => ?_, fun o hw ho =>
      ⟨hsGainCleared_of_gainWait hw ho, hsGainCleared_of_begun hw ho⟩⟩
    by_cases hw : u.hs.seq = .waiting
    · rw [hsGainCleared_of_no_op hw ho]
      exact if_neg fun ha => by
        obtain ⟨t, ht, he⟩ := tripActive_iff.1 ha
        exact hn t ht he
    · exact hsGainCleared_of_not_waiting hw

end Sys2Proof.Machine
end

section
/-! PROOFS. Handling: STOP TRIP and RESUME. -/

namespace Sys2Proof.Machine

/-! ## STOP TRIP (R99) -/

section
variable {s : State}

theorem ownStopTrip_of_none (h : s.hs.seq = .idle ∨ s.hs.seq = .interrupted ∨ s.hs.tripActive = false) :
    ownStopTrip s = refused .state s := if_pos h

theorem not_stopTripRefused_of_active {t : TripRec} (h1 : s.hs.seq ≠ .idle) (h2 : s.hs.seq ≠ .interrupted)
    (ht : s.hs.trip = some t) (he : t.ended = none) :
    ¬(s.hs.seq = .idle ∨ s.hs.seq = .interrupted ∨ s.hs.tripActive = false) := by
  simp [h1, h2, tripActive_iff.2 ⟨t, ht, he⟩]

variable (h : ¬(s.hs.seq = .idle ∨ s.hs.seq = .interrupted ∨ s.hs.tripActive = false))
include h

theorem ownStopTrip_of_no_op (ho : s.hs.op = none) : ownStopTrip s = done (endTrip .stopped s) :=
  (if_neg h).trans (if_pos (by simp [ho]))

theorem ownStopTrip_of_op {t : TripRec} (ho : s.hs.op ≠ none) (ht : s.hs.trip = some t) :
    ownStopTrip s = done (s.setHs { s.hs with trip := some { t with stop := true } }) := by
  rw [ownStopTrip, if_neg h, if_neg (by simpa using ho), ht]
  rfl

end

/-! ## RESUME (R95) -/

/-- RESUME's checks for an operation, by R95's conditions. -/
theorem resumeAllowed_iff {o : OpRec} {s : State} : resumeAllowed o s = true ↔
    s.on .mastLocked = true ∧ s.on .stopChainHealthy = true
      ∧ (selectsClamp o.op o.stage = true → s.on .clampClosed = true)
      ∧ (o.stage ≠ .quiet → o.stage ≠ .unclamp → s.cm.pump1.st = .stopped ∧ s.cm.pump2.st = .stopped)
      ∧ (o.stage = .index → s.on .armHome = true) := by
  have clamp : (!selectsClamp o.op o.stage || s.on .clampClosed) = true ↔
      (selectsClamp o.op o.stage = true → s.on .clampClosed = true) := by
    simp [imp_iff_not_or]
  have quiet : (s.cm.quiet || o.stage == .quiet || o.stage == .unclamp) = true ↔
      (o.stage ≠ .quiet → o.stage ≠ .unclamp → s.cm.pump1.st = .stopped ∧ s.cm.pump2.st = .stopped) := by
    simp only [Cm.quiet, Bool.or_eq_true, Bool.and_eq_true, beq_iff_eq]
    tauto
  have home : (o.stage != .index || s.on .armHome) = true ↔
      (o.stage = .index → s.on .armHome = true) := by
    simp [imp_iff_not_or]
  simp only [resumeAllowed, Bool.and_eq_true, and_assoc, clamp, quiet, home]

section
variable {s : State}

theorem ownResume_of_other (h : ¬(s.hs.seq = .held ∨ s.hs.seq = .faulted ∨ s.hs.seq = .interrupted)) :
    ownResume s = refused .state s := if_neg h

variable (h : s.hs.seq = .held ∨ s.hs.seq = .faulted ∨ s.hs.seq = .interrupted)
include h

theorem ownResume_of_no_op (ho : s.hs.op = none) :
    ownResume s = done (settle (tripNext (clearStopFlags s))) := by
  rw [ownResume, if_pos h, ho]

variable {o : OpRec} (ho : s.hs.op = some o)
include ho

theorem ownResume_of_barred (ha : ¬resumeAllowed o s = true) : ownResume s = refused .interlock s := by
  rw [ownResume, if_pos h, ho]
  exact if_neg ha

theorem ownResume_of_allowed (ha : resumeAllowed o s = true) :
    ownResume s = done (settle (resumeOp o s)) := by
  rw [ownResume, if_pos h, ho]
  exact if_pos ha

end

/-- Settles O34: STOP TRIP by what it finds, and RESUME of an operation and of a trip between
operations. -/
theorem stopTripAndResumeMoveTheSequencer : Obligations.StopTripAndResumeMoveTheSequencer := by
  refine ⟨fun dt tag s hs => ?_, fun dt tag s hs => ?_⟩ <;> intro h
  · have hrep : h.reports = [] := heard_reports.trans hs.2.1
    rw [show s.tps.clock = h.now from heard_now.symm, show s.hs.seq = h.hs.seq by simp [h, State.heard],
      show s.hs.op = h.hs.op by simp [h, State.heard], show s.hs.trip = h.hs.trip by simp [h, State.heard],
      show s.hs.tripActive = h.hs.tripActive by simp [h, State.heard, Hs.tripActive]]
    intro c
    refine ⟨fun hn => congrArg _ (requestRow_unchanged (r := .stopTrip) hs
      (congrArg withStatus (ownStopTrip_of_none hn))), fun t h1 h2 ht he => ?_⟩
    have active := not_stopTripRefused_of_active h1 h2 ht he
    refine ⟨fun ho => ?_, fun ho => ?_⟩ <;> intro u
    · have e : ownStopTrip h = done u :=
        (ownStopTrip_of_no_op active ho).trans (congrArg done (endTrip_of_trip ht .stopped))
      exact congrArg _ (requestRow_answering_keeps (r := .stopTrip) hs (congrArg withStatus e)
        (Keeps.refl h).setHs.raise hrep)
    · exact congrArg _ (requestRow_answering_keeps (r := .stopTrip) hs
        (congrArg withStatus (ownStopTrip_of_op active ho ht)) (Keeps.refl h).setHs hrep)
  · have hcm : h.cm = s.cm.elapse dt := heard_cm (by simp [hs.1])
    rw [show s.rrc = h.rrc from heard_rrc.symm, show s.tps.clock = h.now from heard_now.symm,
      show s.hs.seq = h.hs.seq by simp [h, State.heard], show s.hs.op = h.hs.op by simp [h, State.heard],
      show s.hs.trip = h.hs.trip by simp [h, State.heard],
      show s.sfe.g0 = h.sfe.g0 by simp [h, State.heard], show s.sfe.g1 = h.sfe.g1 by simp [h, State.heard],
      show s.cm.gainLatch = h.cm.gainLatch by simp [h, State.heard],
      show s.cm.pump1.st = h.cm.pump1.st by rw [hcm]; rfl,
      show s.cm.pump2.st = h.cm.pump2.st by rw [hcm]; rfl]
    intro c stopped
    have same {why : Reason} (e : ownResume h = refused why h) :
        c = .next (h.answering tag .resume (.refuse why (handlingStatus h))) :=
      congrArg _ (requestRow_unchanged (r := .resume) hs (congrArg withStatus e))
    have moves {u : State} (e : ownResume h = done (settle u)) (k : Keeps h u) :
        c = .next ((settle u).replying tag .resume (.ok (handlingStatus (settle u)))) :=
      congrArg _ (requestRow_replying_keeps (r := .resume) hs (congrArg withStatus e) (settle_keeps k))
    have goesOn (hq : stopped) (ho : h.hs.op = none) :
        c = .next ((settle (tripNext (clearStopFlags h))).replying tag .resume
          (.ok (handlingStatus (settle (tripNext (clearStopFlags h)))))) :=
      moves (ownResume_of_no_op hq ho) (tripNext_keeps (clearStopFlags_keeps (.refl h)))
    refine ⟨fun hn => same (ownResume_of_other hn), goesOn, fun t hq ho ht => ?_, fun o hq ho => ?_⟩
    · intro v went ends
      have hv : v.hs.trip = some t := ht
      have next {w : State} (e : tripNext v = w) : went w := by
        rw [← e]
        exact goesOn hq ho
      refine ⟨fun hst => next ((tripNext_of_stop hv hst).trans (endTrip_of_trip hv _)),
        fun hst hg => next (tripNext_of_gain hv hst hg), fun op fails hst hg hd => ?_⟩
      obtain ⟨rfl, rfl⟩ := op_noChoice_of_dir hd
      exact ⟨fun why hc => next ((tripNext_of_no_choice hv hst hg hc).trans (endTrip_of_trip hv _)),
        fun k i hc => next (tripNext_of_choice hv hst hg hc)⟩
    · intro allowed
      have ha : resumeAllowed o h = true ↔ allowed := resumeAllowed_iff
      exact ⟨fun hn => same (ownResume_of_barred hq ho (mt ha.1 hn)), fun hy =>
        moves (ownResume_of_allowed hq ho (ha.2 hy)) (resumeOp_keeps (.refl h))⟩

end Sys2Proof.Machine
end

section
/-! PROOFS. Handling: the slot that an operation takes, and the order of its stages. -/

namespace Sys2Proof.Machine

/-! ## The string's class, and the slots that fit it (R51, R55) -/

section
variable {r : Rrc} {rest : List (Nat × Option Nat)} {i : Nat} {torque : Option Nat}

theorem Rrc.top_of_append (h : r.string = rest ++ [(i, torque)]) : r.top = some i := by
  simp [Rrc.top, h]

theorem Rrc.top_of_nil (h : r.string = []) : r.top = none := by
  simp [Rrc.top, h]

theorem Rrc.stringClass_of_append {rod : Rod} (h : r.string = rest ++ [(i, torque)])
    (hr : r.rod i = some rod) : r.stringClass = some rod.cls := by
  rw [Rrc.stringClass, Rrc.top_of_append h]
  exact congrArg (Option.map Rod.cls) hr

theorem Rrc.stringClass_of_nil (h : r.string = []) : r.stringClass = none := by
  rw [Rrc.stringClass, Rrc.top_of_nil h]
  rfl

/-- A loaded rod is eligible that is not worn and fits the string (R55). -/
theorem Rrc.eligible_of_rod {rod : Rod} (hr : r.rod i = some rod) :
    r.eligible (.loaded i) = true ↔ rod.worn = false ∧ ∀ k ∈ r.stringClass, k = rod.cls := by
  rw [Rrc.eligible, hr]
  simp only [Bool.and_eq_true, Bool.not_eq_true', Rrc.fitsString_iff]
  rfl

theorem Rrc.eligible_iff {x : Slot} : r.eligible x = true ↔
    ∃ i rod, x = .loaded i ∧ r.rod i = some rod ∧ rod.worn = false ∧ ∀ k ∈ r.stringClass, k = rod.cls := by
  constructor
  · intro h
    cases x with
    | empty => cases h
    | reserved => cases h
    | loaded i =>
      cases hr : r.rod i with
      | none => simp [Rrc.eligible, hr] at h
      | some rod => exact ⟨i, rod, rfl, hr, (Rrc.eligible_of_rod hr).1 h⟩
  · rintro ⟨i, rod, rfl, hr, h⟩
    exact (Rrc.eligible_of_rod hr).2 h

end

/-! ## The slot that ADD ROD takes (R55) -/

section
variable {r : Rrc} {n : Nat}

theorem Rrc.choose_addRod_of_full (h : 128 ≤ r.string.length) (k : Option Nat) :
    r.choose .addRod k = .error .listFull := if_pos h

variable (h : r.string.length < 128)
include h

theorem Rrc.choose_addRod_of_range (hn : 40 ≤ n) : r.choose .addRod (some n) = .error .range :=
  (if_neg (Nat.not_le.2 h)).trans (if_pos hn)

theorem Rrc.choose_addRod_of_empty (hn : n < 40) (hs : r.slotAt n = .empty) :
    r.choose .addRod (some n) = .error .slotEmpty := by
  refine (if_neg (Nat.not_le.2 h)).trans ((if_neg (Nat.not_le.2 hn)).trans ?_)
  rw [hs]

theorem Rrc.choose_addRod_of_reserved (hn : n < 40) {o : Owner} {j : Intent} {i : Nat}
    (hs : r.slotAt n = .reserved o j i) : r.choose .addRod (some n) = .error .slotOccupied := by
  refine (if_neg (Nat.not_le.2 h)).trans ((if_neg (Nat.not_le.2 hn)).trans ?_)
  rw [hs]

theorem Rrc.choose_addRod_of_loaded (hn : n < 40) {i : Nat} (hs : r.slotAt n = .loaded i) :
    r.choose .addRod (some n) = if r.eligible (.loaded i) then .ok (n, i) else .error .interlock := by
  refine (if_neg (Nat.not_le.2 h)).trans ((if_neg (Nat.not_le.2 hn)).trans ?_)
  rw [hs]

theorem Rrc.choose_addRod_of_no_slot (hs : r.nearest r.eligible = none) :
    r.choose .addRod none = .error .slotEmpty := by
  refine (if_neg (Nat.not_le.2 h)).trans ?_
  rw [hs]

theorem Rrc.choose_addRod_of_nearest {i : Nat} (hn : r.nearest r.eligible = some n)
    (hs : r.slotAt n = .loaded i) : r.choose .addRod none = .ok (n, i) := by
  refine (if_neg (Nat.not_le.2 h)).trans ?_
  rw [hn]
  simp only [hs]

end

/-! ## The slot that REMOVE ROD takes (R55) -/

theorem Rrc.choose_removeRod_of_no_rod {r : Rrc} (h : r.string = []) (k : Option Nat) :
    r.choose .removeRod k = .error .state := by
  rw [Rrc.choose, Rrc.chooseRemove, Rrc.top_of_nil h]

section
variable {r : Rrc} {i n : Nat} (h : r.top = some i)
include h

theorem Rrc.choose_removeRod_of_range (hn : 40 ≤ n) : r.choose .removeRod (some n) = .error .range := by
  rw [Rrc.choose, Rrc.chooseRemove, h]
  exact if_pos hn

theorem Rrc.choose_removeRod_of_named (hn : n < 40) : r.choose .removeRod (some n) =
    if r.slotAt n = .empty then .ok (n, i) else .error .slotOccupied := by
  rw [Rrc.choose, Rrc.chooseRemove, h]
  refine (if_neg (Nat.not_le.2 hn)).trans ?_
  simp only [Slot.isEmpty_iff]

theorem Rrc.choose_removeRod_of_no_slot (hs : r.nearest Slot.isEmpty = none) :
    r.choose .removeRod none = .error .slotOccupied := by
  rw [Rrc.choose, Rrc.chooseRemove, h, hs]

theorem Rrc.choose_removeRod_of_nearest (hs : r.nearest Slot.isEmpty = some n) :
    r.choose .removeRod none = .ok (n, i) := by
  rw [Rrc.choose, Rrc.chooseRemove, h, hs]

end

/-! ## The order of the stages (R83, R85) -/

theorem stages_nodup (op : Op) : op.stages.Nodup := by cases op <;> decide

/-- The stage that follows one is the next of the operation's table. -/
theorem Op.next_of_stages {op : Op} {a b : List Stage} {st : Stage} (h : op.stages = a ++ st :: b) :
    op.next st = b.head? := by
  have hst : st ∉ a := fun hm =>
    (List.nodup_append.1 (h ▸ stages_nodup op)).2.2 st hm st List.mem_cons_self rfl
  have hi : op.stages.findIdx (· == st) = a.length := by
    rw [h, List.findIdx_append, if_neg]
    · simp [List.findIdx_cons]
    · rw [List.findIdx_lt_length]
      rintro ⟨x, hx, e⟩
      exact hst (beq_iff_eq.1 e ▸ hx)
  rw [Op.next, hi, h]
  simp [List.getElem?_append_right, List.head?_eq_getElem?]

end Sys2Proof.Machine
end

section
/-! PROOFS. Handling: the end of a stage, its record changes and the stage after it. -/

namespace Sys2Proof.Machine

/-! ## A connection counted (R48) -/

/-- A rod's change, with its entry written out (R44). -/
theorem Rrc.modRod_of_rod {r : Rrc} {i : Nat} {rod : Rod} (h : r.rod i = some rod) (f : Rod → Rod) :
    r.modRod i f = { r with registry := r.registry.set i (some (f rod)) } := by
  have hi : r.registry[i]? = some (some rod) := by
    simpa [Rrc.rod, List.getD_eq_getElem?_getD, Option.getD_eq_iff] using h
  rw [Rrc.modRod, List.modify_eq_set_getElem?, hi]
  rfl

/-- A rod with one more connection (R48). -/
def Rod.connsUp (x : Rod) : Rod := { x with conns := min (x.conns + 1) 65535 }

/-- A rod with a connection counted, worn where they reach the limit (R48). -/
def Rod.connected (limit : Nat) (x : Rod) : Rod :=
  { x.connsUp with worn := x.worn || decide (limit ≤ x.connsUp.conns) }

/-- The notice of a rod that its connections wear (R48). -/
def State.wearTold (x : Rod) (s : State) : State :=
  if x.worn = false ∧ s.pConnLimit ≤ x.connsUp.conns then
    s.raise (.rodWorn x.serial .connections x.connsUp.conns x.dist)
  else s

/-- An entry of the registry written (R44). -/
def State.rodPut (i : Nat) (x : Rod) (s : State) : State :=
  s.setRrc { s.rrc with registry := s.rrc.registry.set i (some x) }

theorem rodPut_rodPut (i : Nat) (x y : Rod) (s : State) : (s.rodPut i x).rodPut i y = s.rodPut i y := by
  simp only [State.rodPut, State.setRrc_rrc, State.setRrc_setRrc, List.set_set]

section
variable {s : State} {i : Nat} {x : Rod} (h : s.rrc.rod i = some x)
include h

theorem setRrc_modRod (f : Rod → Rod) : s.setRrc (s.rrc.modRod i f) = s.rodPut i (f x) :=
  congrArg s.setRrc (Rrc.modRod_of_rod h f)

theorem rod_rodPut (y : Rod) : (s.rodPut i y).rrc.rod i = some y := by
  rw [← setRrc_modRod h fun _ => y, State.setRrc_rrc, Rrc.rod_modRod_self, h]
  rfl

theorem wearOut_of_rod (c : WornCause) : wearOut i c s =
    (s.rodPut i { x with worn := true }).raise (.rodWorn x.serial c x.conns x.dist) := by
  rw [wearOut, h]
  simp only [setRrc_modRod h]

theorem countConnection_eq : countConnection i s =
    if x.worn = false ∧ s.pConnLimit ≤ x.connsUp.conns then
      wearOut i .connections (s.rodPut i x.connsUp)
    else s.rodPut i x.connsUp := by
  have hf := setRrc_modRod h Rod.connsUp
  have hc : (!x.connsUp.worn && s.pConnLimit ≤ x.connsUp.conns) = true ↔
      x.worn = false ∧ s.pConnLimit ≤ x.connsUp.conns := by
    simp [Rod.connsUp]
  unfold countConnection
  simp only [← hc]
  unfold Rod.connsUp at hf
  simp only [hf]
  rw [rod_rodPut h]
  rfl

theorem countConnection_of_rod :
    countConnection i s = (s.rodPut i (x.connected s.pConnLimit)).wearTold x := by
  rw [countConnection_eq h]
  by_cases hw : x.worn = false ∧ s.pConnLimit ≤ x.connsUp.conns
  · have hx : x.connected s.pConnLimit = { x.connsUp with worn := true } := by
      simp [Rod.connected, hw.2]
    rw [if_pos hw, wearOut_of_rod (rod_rodPut h _), rodPut_rodPut, hx]
    exact (if_pos hw).symm
  · have hx : x.connected s.pConnLimit = x.connsUp := by
      have hd : (x.worn || decide (s.pConnLimit ≤ x.connsUp.conns)) = x.worn := by
        cases hb : x.worn <;> simp_all
      rw [Rod.connected, hd]
      rfl
    rw [if_neg hw, hx]
    exact (if_neg hw).symm

end

/-! ## The end of a stage (R79) -/

/-- The stall timer off as a stage ends (R82). -/
def State.stallOff (u : State) : State := u.setHs { u.hs with stall := none }

section
variable {u : State} {o : OpRec} (ho : u.hs.op = some o)
include ho

theorem completeStage_of_plain {st : Stage} {t : State} (hn : o.op.next o.stage = some st)
    (hc : o.stage ≠ .clamp) (ht : stageChanges o u.stallOff = t) : completeStage u = beginStage st t := by
  rw [completeStage_of_next ho hn, ← ht]
  exact if_neg hc

theorem completeStage_of_last (hn : o.op.next o.stage = none) :
    completeStage u = endOp (stageChanges o u.stallOff) := by
  rw [completeStage, ho]
  simp only [hn]
  rfl

/-- After CLAMP group 0 is written with CLAMP CLOSED before the next stage begins (R80; log 23). -/
theorem completeStage_of_clamp {st : Stage} (hs : o.stage = .clamp) (hn : o.op.next .clamp = some st) :
    let g := stageSet ||| switchMask .clampClosed
    let w := u.stallOff.setSfe
      { u.sfe with g0 := ⟨g, g, u.mismOn g, u.sfe.g0.flag || u.mismOn g != 0⟩ }
    completeStage u = if u.mismOn g != 0 then
        holdOp .guard (some (u.mismOn g))
          (w.setHs { w.hs with op := some { o with stage := st, begun := false } })
      else beginStage st w := by
  intro g w
  have hg : guardOf o.op st = g := by
    cases hop : o.op <;> rw [hop] at hn <;> cases hn <;> rfl
  have hch : stageChanges o (u.setHs { u.hs with stall := none }) = u.stallOff := by
    rw [stageChanges, hs]
    rfl
  rw [completeStage_of_next ho (hs ▸ hn)]
  simp only [hch, hg, writeGroup_g0_eq]
  exact if_pos hs

/-- UNCLAMP is the last stage: the operation ends DONE (R89). -/
theorem completeStage_of_unclamp (hs : o.stage = .unclamp) :
    let e := ((u.stallOff.setSfe { u.sfe with g0 := ⟨0, 0, 0, u.sfe.g0.flag⟩ }).setHs
      { u.hs with seq := .idle, op := none, cause := none, stall := none }).raise
        (.opDone o.op (u.rrc.serialOf o.rod) o.slot u.rrc.string.length)
    completeStage u = if o.trip then tripContinue e else e := by
  intro e
  have hn : o.op.next o.stage = none := by
    rw [hs]
    cases o.op <;> rfl
  have hch : stageChanges o u.stallOff = u.stallOff := by rw [stageChanges, hs]
  have hop : u.stallOff.hs.op = some o := ho
  rw [completeStage_of_last ho hn, hch, endOp, hop]
  simp only [disarmGroup_eq]
  rfl

end

end Sys2Proof.Machine
end

section
/-! PROOFS. Handling: each stage's record changes, what completes a stage, and the stage that follows. -/

namespace Sys2Proof.Machine

/-! ## The record changes of each stage (R47, R48, R83, R85) -/

theorem stageChanges_of_plain {o : OpRec}
    (h : o.stage ∈ [Stage.quiet, .unscrew, .index, .lift, .spin, .catchRod, .reconnect]) (s : State) :
    stageChanges o s = s := by
  simp only [List.mem_cons, List.not_mem_nil, or_false] at h
  rcases h with h | h | h | h | h | h | h <;> rw [stageChanges, h]

/-- The top rod is popped into the arm, the string written out (R47, R51). -/
theorem Rrc.pop_of_append {r : Rrc} {rest : List (Nat × Option Nat)} {i : Nat} {torque : Option Nat}
    (h : r.string = rest ++ [(i, torque)]) :
    r.pop = { (r.moveRod i .arm) with string := rest, arm := some i } := by
  rw [Rrc.pop, Rrc.top_of_append h]
  simp only [h, List.dropLast_concat]

/-- A rod is pushed on the string and its connection counted (R47, R48). -/
theorem countConnection_push {v : State} {i : Nat} {x : Rod} (h : v.rrc.rod i = some x)
    (torque : Option Nat) : countConnection i (v.setRrc (v.rrc.push i torque)) = (v.setRrc
      { v.rrc with
        registry := v.rrc.registry.set i
          (some ({ x with loc := .string (v.rrc.string.length + 1) }.connected v.pConnLimit))
        string := v.rrc.string ++ [(i, torque)], arm := none }).wearTold x := by
  let r : Rrc := { v.rrc with string := v.rrc.string ++ [(i, torque)], arm := none }
  have hr : (v.setRrc r).rrc.rod i = some x := h
  have hp : v.setRrc (v.rrc.push i torque) =
      (v.setRrc r).rodPut i { x with loc := .string (v.rrc.string.length + 1) } := by
    rw [Rrc.push_of_rod h]
    rfl
  rw [hp, countConnection_of_rod (rod_rodPut hr _), rodPut_rodPut]
  rfl

section
variable {v : State} {o : OpRec}

theorem stageChanges_of_present (hs : o.stage = .present) : stageChanges o v =
    v.setRrc { (v.rrc.moveRod o.rod .arm) with arm := some o.rod } := by
  rw [stageChanges, hs]

theorem stageChanges_of_make {x : Rod} (hs : o.stage = .make) (hx : v.rrc.rod o.rod = some x) :
    stageChanges o v = setDepthHold false (deliverLength (dibTorque o.peak ((v.setRrc
      { v.rrc with
        registry := v.rrc.registry.set o.rod
          (some ({ x with loc := .string (v.rrc.string.length + 1) }.connected v.pConnLimit))
        string := v.rrc.string ++ [(o.rod, o.peak)], arm := none }).wearTold x))) := by
  rw [stageChanges, hs]
  simp only [countConnection_push hx]

theorem stageChanges_of_brk {x : Rod} (hs : o.stage = .brk) (hx : v.rrc.rod o.rod = some x) :
    stageChanges o v = (v.rodPut o.rod (x.connected v.pConnLimit)).wearTold x := by
  rw [stageChanges, hs]
  exact countConnection_of_rod hx

theorem stageChanges_of_free {rest : List (Nat × Option Nat)} {i : Nat} {torque : Option Nat}
    (hs : o.stage = .free) (h : v.rrc.string = rest ++ [(i, torque)]) :
    stageChanges o v = setDepthHold false (deliverLength (v.setRrc
      { (v.rrc.moveRod i .arm) with string := rest, arm := some i })) := by
  rw [stageChanges, hs]
  simp only [Rrc.pop_of_append h]

theorem stageChanges_of_stow (hs : o.stage = .stow) : stageChanges o v = v.setRrc
    { ((v.rrc.moveRod o.rod (.slot o.slot)).putSlot o.slot (.loaded o.rod)) with arm := none } := by
  rw [stageChanges, hs]

theorem stageChanges_of_addRod_ret (ho : o.op = .addRod) (hs : o.stage = .ret) :
    stageChanges o v = setHold false (v.setRrc (v.rrc.putSlot o.slot .empty)) := by
  rw [stageChanges, hs, ho]

theorem stageChanges_of_removeRod_ret (ho : o.op = .removeRod) (hs : o.stage = .ret) :
    stageChanges o v = setHold false v := by
  rw [stageChanges, hs, ho]

end

/-- A stage other than CLAMP is followed by the next of its operation's table (R79). -/
theorem completeStage_of_stage {u t : State} {o : OpRec} {op : Op} {st after : Stage}
    (ho : u.hs.op = some o) (hop : o.op = op) (hst : o.stage = st) (hn : op.next st = some after)
    (hc : st ≠ .clamp) (ht : stageChanges o u.stallOff = t) : completeStage u = beginStage after t := by
  subst hop hst
  exact completeStage_of_plain ho hn hc ht

/-! ## What completes a stage (R79, R84, R86) -/

section
variable {u : State} {o : OpRec}

/-- A report that is the only one handed on is taken, and 99 more may follow (log 7). -/
theorem settle_report_takes {r : Report} {t : State} (hr : u.reports = []) (e : takeReport r u = t) :
    settle (u.report r) = settleWith 99 t := by
  have h : (u.report r).reports = [r] := by simp [hr]
  have hu : (u.report r).setReports [] = u := by rw [← hr]; rfl
  show settleWith (99 + 1) (u.report r) = _
  rw [settleWith, h]
  simp only [hu, e]

theorem takeReport_complete_handling {r : Req} (h : r.client = .handling) (how : MotionEnd) :
    takeReport (.complete r how) u = hsMotionDone u := by
  simp only [takeReport, h]

variable (ho : u.hs.op = some o)
include ho

theorem hsStageMet_of_waiting (hw : u.hs.seq = .waiting) (hb : o.begun = true) :
    hsStageMet o.stage u = completeStage u := by
  rw [hsStageMet, ho]
  exact if_pos (by simp [hw, hb])

theorem hsMotionDone_of_running (hq : u.hs.seq = .running) (h : ¬(o.stage = .brk ∧ o.wrench = .grip)) :
    hsMotionDone u = completeStage u := by
  rw [hsMotionDone, ho]
  exact (if_neg (by simp [hq])).trans (if_neg (by simpa using h))

/-- BREAK's wrench is released after its grip (R86). -/
theorem hsMotionDone_of_grip (hq : u.hs.seq = .running) (hs : o.stage = .brk) (hw : o.wrench = .grip) :
    hsMotionDone u = requestMotion (Req.new .handling .wrench .second (.switch .wrenchOpen))
      (u.setHs { u.hs with op := some { o with wrench := .release } }) := by
  rw [hsMotionDone, ho]
  refine (if_neg (by simp [hq])).trans ((if_pos (by simp [hs, hw])).trans ?_)
  simp only [stageReq, hs]

section
variable (hq : u.hs.seq = .waiting) (hb : o.begun = true)
include hq hb

theorem settle_stageMet (hr : u.reports = []) :
    settle (u.report (.stageMet o.stage)) = settleWith 99 (completeStage u) :=
  settle_report_takes hr (hsStageMet_of_waiting ho hq hb)

theorem hsRotation_of_spin (hs : o.stage = .spin) : hsRotation u =
    if u.pSpinTurns ≤ (u.sfe.rotCount + (2 ^ 32 - o.rotBase)) % 2 ^ 32 then u.report (.stageMet .spin)
    else u := by
  rw [hsRotation, ho]
  refine (if_pos hs).trans ?_
  simp only [hsTest_of_waiting ho hq hb, conditionMet_spin hs, hs]

theorem hsHead_of_lift (hs : o.stage = .lift) : hsHead u =
    if conditionMet o u then u.report (.stageMet .lift) else u := by
  rw [hsHead, ho]
  refine (if_pos hs).trans ?_
  rw [hsTest_of_waiting ho hq hb, hs]

/-- LIFT waits while the encoder gives no height (R86). -/
theorem hsHead_of_lift_unread (hs : o.stage = .lift) (he : u.sfe.enc ≠ .good) : hsHead u = u :=
  (hsHead_of_lift ho hq hb hs).trans (if_neg fun hm => he ((conditionMet_lift hs).1 hm).1)

theorem hsHead_of_lift_height {x : Nat} {rod : Rod} (hs : o.stage = .lift) (he : u.sfe.enc = .good)
    (hx : u.sfe.head = some x) (hr : u.rrc.rod o.rod = some rod) :
    hsHead u = if rod.length ≤ x then u.report (.stageMet .lift) else u := by
  have hm : conditionMet o u = true ↔ rod.length ≤ x := by simp [conditionMet_lift hs, he, hx, hr]
  simp only [hsHead_of_lift ho hq hb hs, hm]

variable (hs : o.stage = .make)
include hs

/-- A torque that is not read as a peak: MAKE is tested as it stands (R84). -/
theorem hsTorque_of_unread (h : u.on .headConnected = false ∨ u.sfe.torque.st ≠ .good) :
    hsTorque u = if conditionMet o u then u.report (.stageMet .make) else u := by
  rw [← hs, ← hsTest_of_waiting ho hq hb, hsTorque, ho]
  refine (if_pos (by simp [hq, hb, hs])).trans ?_
  split
  · next hf _ hon =>
    have hg : u.sfe.torque.st = .good := by simpa [Analogue.isFaulted] using hf
    simp [hon, hg] at h
  · rfl

theorem hsTorque_of_off (hon : u.on .headConnected = false) : hsTorque u = u :=
  (hsTorque_of_unread ho hq hb hs (.inl hon)).trans
    (if_neg fun hm => Bool.false_ne_true (hon.symm.trans ((conditionMet_make hs).1 hm).1))

theorem hsTorque_of_fault (hon : u.on .headConnected = true) (hf : u.sfe.torque.st ≠ .good) :
    hsTorque u = u.report (.stageMet .make) :=
  (hsTorque_of_unread ho hq hb hs (.inr hf)).trans (if_pos ((conditionMet_make hs).2 ⟨hon, .inl hf⟩))

/-- A torque delivered is noted as a peak, and MAKE completes from the limit on (R84). -/
theorem hsTorque_of_value {x : Nat} (hon : u.on .headConnected = true) (hg : u.sfe.torque.st = .good)
    (hx : u.sfe.torque.value = some x) :
    let w := u.setHs { u.hs with op := some { o with peak := some (max x (o.peak.getD 0)) } }
    hsTorque u = if u.pMakeTorque ≤ x then w.report (.stageMet .make) else w := by
  intro w
  let p : OpRec := { o with peak := some (max x (o.peak.getD 0)) }
  have hf : u.sfe.torque.isFaulted = false := by simp [Analogue.isFaulted, hg]
  have ht : hsTorque u = hsTest w := by
    rw [hsTorque, ho]
    refine (if_pos (by simp [hq, hb, hs])).trans ?_
    simp only [hf, hx, hon]
    rfl
  have hm : conditionMet p w = true ↔ u.pMakeTorque ≤ x := by
    refine (conditionMet_make (o := p) hs).trans ⟨?_, fun hle => ⟨hon, .inr ⟨x, hx, hle⟩⟩⟩
    rintro ⟨-, hn | ⟨y, hy, hle⟩⟩
    · exact absurd hg hn
    · obtain rfl : x = y := Option.some.inj (hx.symm.trans hy)
      exact hle
  rw [ht, hsTest_of_waiting (s := w) (o := p) rfl hq hb]
  simp only [hm, show p.stage = .make from hs]

end

/-- HEAD CONNECTED taken with a stage that waits for it: the stage is to complete (R79, R83 to R85). -/
theorem hsHeadConnected_of_met (hq : u.hs.seq = .waiting) (hb : o.begun = true)
    (hs : o.stage ∈ [Stage.unscrew, .free, .reconnect, .make]) (hm : conditionMet o u = true) :
    hsHeadConnected u = u.report (.stageMet o.stage) := by
  have ht : hsHeadConnected u = hsTest u := by
    rw [hsHeadConnected, ho]
    simp only [List.mem_cons, List.not_mem_nil, or_false] at hs
    rcases hs with hs | hs | hs | hs <;> simp only [hs]
  rw [ht, hsTest_of_waiting ho hq hb, if_pos hm]

end

/-- The stages that HEAD CONNECTED completes as it is taken, the depth state decided first (R83 to R85,
R104). -/
theorem headConnected_completes {f : State} {o : OpRec} {on : Bool} (hon : f.on .headConnected = on)
    (h : (o.stage = .unscrew ∧ on = false) ∨ (o.stage = .free ∧ on = false)
      ∨ (o.stage = .reconnect ∧ on = true)
      ∨ (o.stage = .make ∧ on = true ∧ (f.sfe.torque.st ≠ .good
        ∨ ∃ x, f.sfe.torque.value = some x ∧ f.pMakeTorque ≤ x))) :
    o.stage ∈ [Stage.unscrew, .free, .reconnect, .make] ∧ conditionMet o (decideDepth f) = true := by
  have same := decideDepth_offBuilder f
  have hsfe : (decideDepth f).sfe = f.sfe := congrArg Prod.fst same
  have hpar : (decideDepth f).params = f.params := congrArg (·.2.2.2.2.2.1) same
  have hd : (decideDepth f).on .headConnected = on := by rw [State.on, hsfe]; exact hon
  have hlim : (decideDepth f).pMakeTorque = f.pMakeTorque := by
    simp only [State.pMakeTorque, State.paramNat, State.param, hpar]
  rcases h with ⟨e, h1⟩ | ⟨e, h1⟩ | ⟨e, h1⟩ | ⟨e, h1, h2⟩
  · exact ⟨by simp [e], (conditionMet_off (.inl e)).2 (hd.trans h1)⟩
  · exact ⟨by simp [e], (conditionMet_off (.inr e)).2 (hd.trans h1)⟩
  · exact ⟨by simp [e], (conditionMet_reconnect e).trans (hd.trans h1)⟩
  · refine ⟨by simp [e], (conditionMet_make e).2 ⟨hd.trans h1, ?_⟩⟩
    rwa [hsfe, hlim]

/-! ## A switch that completes a motion (R67) -/

/-- A switch written reads as written (R3). -/
theorem inSet_putSwitch (x : SwitchSet) (sw : Switch) (on : Bool) : inSet (putSwitch x sw on) sw = on := by
  cases on with
  | true => exact inSet_putSwitch_on x sw
  | false => exact inSet_putSwitch_off x sw

/-- A switch taken on, the loader free: its reader is the arbiter (R3, R58). -/
theorem deliverSwitch_on_of_no_loader {s t : State} {sw : Switch} (h1 : sw ≠ .headConnected)
    (h2 : sw ≠ .indexLocked) (e : ahaSwitchOn sw s = t) (hl : t.rrc.loader = none) :
    deliverSwitch sw true s = t := by
  by_cases h3 : sw = .armHome
  · subst h3
    rw [← loaderTest_of_none hl, ← e]
    rfl
  · exact (deliverSwitch_of_plain ⟨h1, h2, h3⟩ true).trans e

/-- Settles O32: the slot's choice, the reports that complete a stage, each stage's record changes and
what it waits for, the switches that complete one, and the order of the tables. -/
theorem theSlotChosenFitsTheOperation : Obligations.TheSlotChosenFitsTheOperation := by
  refine ⟨fun r n => ?_, fun u o ho hr => ?_, fun u o ho => ?_, fun dt sw s o hs ho => ?_, fun op => ?_,
    fun op a b st => Op.next_of_stages, fun r x => ?_, fun u o r how ho hr hc hq hs hw => ?_⟩
  -- The slot's choice, and the reports that complete a stage.
  · refine ⟨Rrc.choose_addRod_of_full, fun hl => ⟨Rrc.choose_addRod_of_range hl, fun hn =>
      ⟨Rrc.choose_addRod_of_empty hl hn, fun _ _ _ => Rrc.choose_addRod_of_reserved hl hn,
        fun i rod hs hrod => ?_⟩, Rrc.choose_addRod_of_no_slot hl,
        fun i => Rrc.choose_addRod_of_nearest hl⟩,
      Rrc.choose_removeRod_of_no_rod, fun i torque rest h => ?_⟩
    · rw [Rrc.choose_addRod_of_loaded hl hn hs]
      simp only [Rrc.eligible_of_rod hrod]
    · have top := Rrc.top_of_append h
      exact ⟨Rrc.choose_removeRod_of_range top, Rrc.choose_removeRod_of_named top,
        Rrc.choose_removeRod_of_no_slot top, Rrc.choose_removeRod_of_nearest top⟩
  · exact ⟨fun hq hb => settle_stageMet ho hq hb hr, fun r how hc hq hn =>
      settle_report_takes hr ((takeReport_complete_handling hc how).trans
        (hsMotionDone_of_running ho hq hn))⟩
  -- Each stage's record changes and the stage after it, and what the stages that wait are tested by.
  · intro v done reg at_ count told
    have follows {op : Op} {st after : Stage} {t : State} (hop : o.op = op) (hst : o.stage = st)
        (hn : op.next st = some after) (hc : st ≠ .clamp) (ht : stageChanges o v = t) :
        done = beginStage after t := completeStage_of_stage ho hop hst hn hc ht
    refine ⟨fun st hst hn => ?_, fun st hst hn => ?_,
      fun hop hst => follows hop hst rfl (by decide) (stageChanges_of_present hst),
      fun x hop hst hx => follows hop hst rfl (by decide) (stageChanges_of_make hst hx),
      fun hop hst => follows hop hst rfl (by decide) (stageChanges_of_addRod_ret hop hst),
      fun x hop hst hx => follows hop hst rfl (by decide) (stageChanges_of_brk hst hx),
      fun i torque rest hop hst h => follows hop hst rfl (by decide) (stageChanges_of_free hst h),
      fun hop hst => follows hop hst rfl (by decide) (stageChanges_of_stow hst),
      fun hop hst => follows hop hst rfl (by decide) (stageChanges_of_removeRod_ret hop hst),
      fun hst => completeStage_of_unclamp ho hst, fun b => rfl, fun hq hb => ?_⟩
    · exact completeStage_of_plain ho hn (by rintro e; simp [e] at hst) (stageChanges_of_plain hst _)
    · intro g m w
      have e := completeStage_of_clamp ho hst hn
      have hm : u.mismOn (stageSet ||| switchMask .clampClosed) = m := rfl
      refine ⟨fun h0 => e.trans (if_neg (by simp [hm, h0])), fun h0 => e.trans ?_⟩
      rw [if_pos (by simpa [hm] using h0)]
      exact holdOp_of_op (o := { o with stage := st, begun := false }) rfl _ _
    · exact ⟨hsRotation_of_spin ho hq hb, hsHead_of_lift_unread ho hq hb,
        fun x rod => hsHead_of_lift_height ho hq hb, hsTorque_of_off ho hq hb, hsTorque_of_fault ho hq hb,
        fun x hst => hsTorque_of_value ho hq hb hst⟩
  -- A switch that completes the motion in hand, and HEAD CONNECTED.
  · intro h
    rw [show s.sfe.raw = h.sfe.raw by simp [h], show s.sfe.g0 = h.sfe.g0 by simp [h],
      show s.sfe.g1 = h.sfe.g1 by simp [h], show s.sfe.g2 = h.sfe.g2 by simp [h],
      show s.sfe.g3 = h.sfe.g3 by simp [h], show s.rrc = h.rrc by simp [h],
      show s.hs.seq = h.hs.seq by simp [h], show s.sfe.torque = h.sfe.torque by simp [h],
      show s.pMakeTorque = h.pMakeTorque by simp [h, State.pMakeTorque, State.paramNat, State.param]]
    intro c on d f due
    have hrep : h.reports = [] := (State.elapse_reports dt s).trans hs.2
    have hop : h.hs.op = some o := (State.elapse_hs_op dt s).trans ho
    have taken (hd : due) {t : State} (e : settle (deliverSwitch sw on f) = t) :
        c = .next (finish t) := by
      obtain ⟨ha, ht, hne, h0, h1, h2, h3⟩ := hd
      have hc : h.sfe.changeDue sw = true := by
        simp only [Sfe.changeDue, Sfe.timerOf, Timer.over, ha, ht]
        simpa using hne
      exact congrArg Host.Outcome.next (event_finish hs ((if_pos hc).trans
        ((takeChange_unselected (unselected_of h0 h1 h2 h3)).trans e)))
    refine ⟨fun r hd hon h1 h2 hl haha hcl ht hf hq hn => taken hd ?_,
      fun hd hsw hq hb hst => taken hd ?_⟩
    · have hholder : f.aha.holder = some r := congrArg Aha.holder haha
      have aims : ahaSwitchOn sw f = (f.setAha ⟨none, [], [], none⟩).report (.complete r .target) :=
        (ahaSwitchOn_of_target hholder ht).trans (endHolder_of_alone hholder hf
          (congrArg Aha.stack haha) (congrArg Aha.waiting haha))
      rw [hon, deliverSwitch_on_of_no_loader h1 h2 aims hl]
      exact settle_report_takes hrep ((takeReport_complete_handling hcl _).trans
        (hsMotionDone_of_running (u := f.setAha ⟨none, [], [], none⟩) hop hq hn))
    · subst hsw
      have same := decideDepth_offBuilder f
      have hhs : (decideDepth f).hs = h.hs := hs_of_offBuilder (s := f) same
      have hop : (decideDepth f).hs.op = some o := hhs ▸ hop
      have hq : (decideDepth f).hs.seq = .waiting := hhs ▸ hq
      obtain ⟨hmem, hmet⟩ := headConnected_completes (f := f) (inSet_putSwitch _ _ on) hst
      have met : deliverSwitch .headConnected on f = (decideDepth f).report (.stageMet o.stage) :=
        hsHeadConnected_of_met hop hq hb hmem hmet
      rw [met]
      exact settle_stageMet hop hq hb ((reports_of_offBuilder same).trans hrep)
  -- The tables, the eligible slots and BREAK's second motion.
  · cases op <;> rfl
  · exact ⟨Rrc.eligible_iff, Rrc.stringClass_of_nil, fun rest i torque rod => Rrc.stringClass_of_append⟩
  · exact settle_report_takes hr ((takeReport_complete_handling hc how).trans
      (hsMotionDone_of_grip ho hq hs hw))

end Sys2Proof.Machine
end

section
/-! PROOFS. Intervals and billing: the reads of the records, and ADD MATERIAL. -/

namespace Sys2Proof.Machine

/-! ## READ LOG and READ TICKET (R139, R173) -/

section
variable (q p : Nat)

theorem logReply_of_scanning {r : Rws} (h : r.scanning = true) : logReply q p r = .refuse .busy := by
  rw [logReply, if_pos h]

/-- READ LOG shows the parts that a record has, and its figures alone where no record is found. -/
theorem logReply_done_iff (r : Rws) : (logReply q p r).status = .done ↔ r.scanning = false ∧ p ≤ 2
    ∧ ∀ x, r.findLog q = some x → p < partCount x.blocks := by
  unfold logReply
  simp only []
  split
  · next hb => simp [Reply.refuse, hb]
  · next hb =>
    split
    · next hp => simp [Reply.refuse, Nat.not_le.2 hp]
    · next hp =>
      have hs : r.scanning = false ∧ p ≤ 2 := ⟨by simpa using hb, Nat.not_lt.1 hp⟩
      split
      · next hf => simp [Reply.ok, hs, hf]
      · next x hf =>
        split
        · next hl => simp [Reply.refuse, hf, Nat.not_lt.2 hl]
        · next hl => simp [Reply.ok, hs, hf, Nat.not_le.1 hl]

/-- READ TICKET shows the parts that a ticket of the list has. -/
theorem readTicket_done_iff (b : Bu) : (readTicket q p b).status = .done ↔
    ∃ k, b.findTicket q = some k ∧ p < max 1 ((k.lines.length + 11) / 12) := by
  show _ ↔ ∃ k, b.findTicket q = some k ∧ p < k.parts
  unfold readTicket
  split
  · next hf => simp [Reply.refuse, hf]
  · next k hf =>
    simp only [hf, Option.some.injEq, exists_eq_left']
    split
    · next hl => simp [Reply.refuse, Nat.not_lt.2 hl]
    · next hl => simp [Reply.ok, Nat.not_le.1 hl]

end

/-- Settles O16: each read is taken at any time, and its owner's reply is the one stated. -/
theorem readsOfTheRecordsAnswerDone : Obligations.ReadsOfTheRecordsAnswerDone := by
  intro dt tag s hs h
  rw [show s.rws.scanning = h.rws.scanning by simp [h, State.heard],
    show s.bu = h.bu by simp [h]]
  have hfind : ∀ q, s.rws.findLog q = h.rws.findLog q := fun q => by
    simp [h, State.heard, Rws.findLog]
  have reads {r : Request} {rep : Reply} (hr : takenInStartUp r = true) (e : own r h = (h, rep)) :
      Host.Outcome.next (ρ := Refusal) (φ := Fault) (requestRow dt tag r s)
        = .next (h.answering tag r rep) := congrArg _ (requestRow_read hs hr e)
  refine ⟨fun i => reads rfl ?_, fun q p => reads rfl rfl,
    fun q p => ⟨?_, logReply_of_scanning q p⟩, fun i p => reads rfl ?_, fun n p => reads rfl rfl,
    fun n p => readTicket_done_iff n p h.bu, fun p => reads rfl ?_⟩
  · have h0 : i.toNat = 0 ↔ i = 0 := BitVec.toNat_inj (y := 0)
    show ownReadIntervals i.toNat h = _
    simp only [ownReadIntervals, refused, h0]
    split <;> rfl
  · simpa only [hfind] using logReply_done_iff q p h.rws
  · show (h, readTariff i.toNat p.toNat h.bu) = _
    exact congrArg (Prod.mk h) (if_congr (by simp [or_assoc]) rfl rfl)
  · show ownReadAccruals p.toNat h = _
    simp only [ownReadAccruals, refused]
    split <;> rfl

/-! ## ADD MATERIAL (R113, R151) -/

/-- An item that the job's tariff defines (R151). -/
theorem definesItem_iff {b : Bu} {n : Nat} : b.definesItem n = true ↔
    ∃ t x, b.jobTariff = some t ∧ x ∈ t.items ∧ x.code = n := by
  unfold Bu.definesItem
  split
  · next t ht => simp [ht, Tariff.item]
  · next ht => simp [ht]

section
variable (v : Interval) {item : Nat} (qty : Nat)

/-- A quantity joins the line that its item has (R113). -/
theorem addMat_of_line (h : ∃ x ∈ v.mats, x.1 = item) : addMat item qty v =
    { v with
      mats := v.mats.map (fun x => (x.1, if x.1 = item then min (x.2 + qty) 999999999 else x.2)) } := by
  have hl : v.mats.any (fun m => m.1 == item) = true := by simpa using h
  have hf : (fun m : Nat × Nat => if m.1 = item then (m.1, min (m.2 + qty) matTop) else m) =
      fun x => (x.1, if x.1 = item then min (x.2 + qty) 999999999 else x.2) := by
    funext m
    split <;> rfl
  rw [addMat, if_pos hl, hf]

/-- An item with no line takes a place while there is one, and joins the other quantity after that
(R113). -/
theorem addMat_of_no_line (h : ∀ x ∈ v.mats, x.1 ≠ item) : addMat item qty v =
    if v.mats.length < 4 then { v with mats := v.mats ++ [(item, min qty 999999999)] }
    else { v with other := min (v.other + qty) 999999999 } := by
  have hl : ¬v.mats.any (fun m => m.1 == item) = true := by
    rw [List.any_eq_true]
    rintro ⟨x, hx, e⟩
    exact h x hx (by simpa using e)
  rw [addMat, if_neg hl]
  rfl

end

/-- A peak torque raises the open interval's (R113). -/
theorem dibTorque_some (x : Nat) (s : State) : dibTorque (some x) s = s.setDib
    { s.dib with
      openIv := s.dib.openIv.map (fun v => { v with
        peak := some (match v.peak with | none => x | some y => max x y) }) } := by
  have hp (p : Option Nat) : max x (p.getD 0) = match p with | none => x | some y => max x y := by
    cases p
    · exact Nat.max_zero x
    · rfl
  simp only [dibTorque, Dib.onOpen, hp]

theorem ne_of_live {j : JobSt} (h : j = .opened ∨ j = .suspended) : j ≠ .noJob ∧ j ≠ .closing := by
  rcases h with rfl | rfl <;> decide

section
variable {s : State} {item qty : Nat}

/-- ADD MATERIAL in a job that is OPEN or SUSPENDED: its checks in order (R151). -/
theorem ownAddMaterial_of_live (h : s.bu.jobSt = .opened ∨ s.bu.jobSt = .suspended) :
    ownAddMaterial item qty s =
      if qty < 1 ∨ 9999 < qty then refused .range s
      else if item < 1 ∨ 16 < item ∨ s.bu.definesItem item = false then refused .unknownItem s
      else if Config.top32 < s.bu.totals.mats.getD (item - 1) 0 + qty then refused .range s
      else
        let b := s.bu.both (Accum.addMat item qty)
        ((s.setBu b).setDib (s.dib.onOpen (addMat item qty)),
          .ok (be 4 (b.totals.mats.getD (item - 1) 0) ++ be 4 (b.since.mats.getD (item - 1) 0))) := by
  rw [ownAddMaterial, if_neg (ne_of_live h).1, if_neg (ne_of_live h).2]

end

/-- Settles O40: the refusals in order and what a quantity that is taken joins; the interval's lines by
whether the item has one; and a peak torque. -/
theorem materialJoinsBothSets : Obligations.MaterialJoinsBothSets := by
  refine ⟨fun dt tag i q s hs => ?_, fun v i q => ⟨addMat_of_line v q, fun hn =>
    ⟨fun hl => (addMat_of_no_line v q hn).trans (if_pos hl),
      fun hl => (addMat_of_no_line v q hn).trans (if_neg (Nat.not_lt.2 hl))⟩⟩,
    fun u => ⟨rfl, fun x => dibTorque_some x u⟩⟩
  intro h
  rw [show s.bu = h.bu by simp [h], show s.dib = h.dib by simp [h]]
  intro c refuse defined total
  have same {why : Reason} (e : ownAddMaterial i.toNat q.toNat h = refused why h) : refuse why :=
    congrArg _ (requestRow_unchanged hs e)
  refine ⟨fun hj => same (if_pos hj), fun hj => same ?_, fun hj => ?_⟩
  · rw [ownAddMaterial, if_neg (by simp [hj]), if_pos hj]
  have live := ownAddMaterial_of_live (item := i.toNat) (qty := q.toNat) hj
  refine ⟨fun hq => same (live.trans (if_pos hq)), fun h1 h2 => ?_⟩
  rw [if_neg (by omega)] at live
  have unknown : (i.toNat < 1 ∨ 16 < i.toNat ∨ h.bu.definesItem i.toNat = false) ↔
      (i.toNat < 1 ∨ 16 < i.toNat ∨ ¬defined) := by
    rw [← Bool.not_eq_true, definesItem_iff]
  refine ⟨fun hi => same (live.trans (if_pos (unknown.2 hi))), fun h3 h4 hd => ?_⟩
  rw [if_neg fun hi => (unknown.1 hi).elim (Nat.not_lt.2 h3) fun hi =>
    hi.elim (Nat.not_lt.2 h4) (· hd)] at live
  refine ⟨fun ht => same (live.trans (if_pos ht)), fun ht => ?_⟩
  have e := live.trans (if_neg (Nat.not_lt.2 ht))
  exact congrArg _ (requestRow_of_own hs e (heard_reports.trans hs.2.1) (heard_free hs.2.2))

end Sys2Proof.Machine
end

section
/-! PROOFS. Intervals: the room made for a closing, MARK INTERVAL and ANNOTATE. -/

namespace Sys2Proof.Machine

/-! ## The room made for a closing (R115) -/

theorem mustForce_iff {d : Dib} :
    d.mustForce = true ↔ 16 ≤ d.queue.length ∨ ∃ x ∈ d.queue, x.flush = true := by
  simp only [Dib.mustForce, Bool.or_eq_true, decide_eq_true_eq, List.any_eq_true]
  rfl

section
variable {s : State}

theorem makeRoom_of_not_forced (h : ¬s.dib.mustForce = true) : makeRoom s = (s, true) := by
  simp [makeRoom, h]

theorem makeRoom_of_no_place (h : s.dib.mustForce = true) (hp : s.rws.hasPlace = false) :
    makeRoom s = (s, false) := by
  simp [makeRoom, h, hp]

theorem makeRoom_of_place (h : s.dib.mustForce = true) (hp : s.rws.hasPlace = true) :
    makeRoom s =
      let v := testHead (commitHead s).1
      (v, !v.dib.mustForce) := by
  simp [makeRoom, h, hp]

/-- A head as it is handed over: one that is not ready goes UNSAMPLED (R122). -/
def Entry.committed (e : Entry) : Entry :=
  if e.ready then e else { e with iv := { e.iv with unsampled := true } }

/-- The head's record joins the writer queue where that has a place, and the head leaves (R122). -/
theorem commitHead_of_place {e : Entry} {rest : List Entry} (hq : s.dib.queue = e :: rest)
    (hp : s.rws.hasPlace = true) :
    let body := e.committed.body s.tps.clock
    commitHead s = ((s.setRws (writerTest
      { s.rws with
        nextSeq := s.rws.nextSeq + 1
        queue := s.rws.queue ++ [⟨.interval, s.rws.nextSeq, e.iv.job, blocksFor body.length,
          s.tps.clock, body, false, some e.iv.number⟩] })).setDib { s.dib with queue := rest }, true) := by
  by_cases hr : e.ready = true <;>
    simp [commitHead, hq, Entry.committed, hr, handOver_of_place hp, State.now]

end

/-! ## What making room leaves -/

/-- A part of the state that neither a hand-over nor the sample queue's end touches is left as it is when
room is made (R115, R122). -/
theorem makeRoom_leaves {β : Type} (p : State → β)
    (hand : ∀ kind job body fresh item t, p (handOver kind job body fresh item t).1 = p t)
    (queue : ∀ t l, p (t.setDib { t.dib with queue := l }) = p t) (s : State) :
    p (makeRoom s).1 = p s := by
  have commit (t : State) : p (commitHead t).1 = p t := by
    unfold commitHead
    split
    · rfl
    · simp only []
      split
      · exact hand ..
      · exact (queue _ _).trans (hand ..)
  have test (n : Nat) (t : State) : p (testHeads n t) = p t := by
    induction n generalizing t with
    | zero => rfl
    | succ n ih =>
      unfold testHeads
      split
      · rfl
      · split
        · simp only []
          split
          · exact (ih _).trans (commit t)
          · exact commit t
        · rfl
  fun_cases makeRoom s with
  | case1 => rfl
  | case2 => rfl
  | case3 => exact (test _ _).trans (commit s)

theorem handOver_bu (kind : RKind) (job : Nat) (body : List Byte) (fresh : Bool) (item : Option Nat)
    (s : State) : (handOver kind job body fresh item s).1.bu = s.bu := by
  fun_cases handOver kind job body fresh item s <;> rfl

section
variable {s u : State} {room : Bool} (h : makeRoom s = (u, room))
include h

theorem hwm_of_makeRoom : u.dib.hwm = s.dib.hwm := by
  have e := makeRoom_leaves (·.dib.hwm) (fun _ _ _ _ _ t => by rw [handOver_dib]) (fun _ _ => rfl) s
  rwa [h] at e

theorem bu_of_makeRoom : u.bu = s.bu := by
  have e := makeRoom_leaves State.bu handOver_bu (fun _ _ => rfl) s
  rwa [h] at e

theorem reports_of_makeRoom : u.reports = s.reports := by
  have e := reports_of_offBuilder (makeRoom_offBuilder s)
  rwa [h] at e

end

/-! ## An interval closes at the mark (R116, R117) -/

section
variable {s u : State} {goOn : Bool}

theorem closeAtMark_of_no_room (h : makeRoom s = (u, false)) : closeAtMark goOn s = none := by
  rw [closeAtMark, h]; rfl

theorem closeAtMark_of_room (h : makeRoom s = (u, true)) :
    closeAtMark goOn s = some (closeInterval goOn s.dib.hwm u) := by
  rw [closeAtMark, h, ← hwm_of_makeRoom h]; rfl

end

/-! ## MARK INTERVAL (R117) -/

section
variable {s : State} {iv : Interval} (hj : s.bu.jobSt = .opened ∨ s.bu.jobSt = .suspended)
include hj

theorem ownMarkInterval_of_none (hi : s.dib.openIv = none) : ownMarkInterval s = refused .state s := by
  rw [ownMarkInterval, if_neg (ne_of_live hj).1, if_neg (ne_of_live hj).2, hi]

theorem ownMarkInterval_of_open (hi : s.dib.openIv = some iv) : ownMarkInterval s =
    if s.dib.hwm < iv.top + 100 then refused .tooShort s
    else (closeAtMark true s).elim (refused .busy s)
      (fun t => (t, .ok (be 2 iv.number ++ be 4 s.dib.hwm))) := by
  have short : s.dib.hwm - iv.top < Config.depthTolerance ↔ s.dib.hwm < iv.top + 100 := by
    simp only [Config.depthTolerance]; omega
  rw [ownMarkInterval, if_neg (ne_of_live hj).1, if_neg (ne_of_live hj).2, hi]
  simp only [short]
  cases closeAtMark true s <;> rfl

end

/-! ## ANNOTATE (R121) -/

section
variable (lith bag remark : Nat) (flags : Byte)

theorem inRange_noteOf : (noteOf lith bag remark flags).inRange = true ↔
    ¬((flags.getLsbD 0 = true ∧ 250 < lith) ∨ (flags.getLsbD 2 = true ∧ 250 < remark)) := by
  have within (b : Bool) (n : Nat) :
      (if b then some n else none).getD 0 ≤ 250 ↔ ¬(b = true ∧ 250 < n) := by
    cases b <;> simp
  simp only [Note.inRange, noteOf, Bool.and_eq_true, decide_eq_true_eq, within, not_or]

/-- A field that a flag bit carries replaces the stored one, 0 making it absent. -/
theorem carried_of_bit (b : Bool) (n : Nat) (old : Option Nat) :
    carried (if b then some n else none) old = if b then (if n = 0 then none else some n) else old := by
  cases b <;> rfl

theorem annotate_noteOf (v : Interval) : v.annotate (noteOf lith bag remark flags) =
    { v with
      lith := if flags.getLsbD 0 then (if lith = 0 then none else some lith) else v.lith
      bag := if flags.getLsbD 1 then (if bag = 0 then none else some bag) else v.bag
      remark := if flags.getLsbD 2 then (if remark = 0 then none else some remark) else v.remark
      final := v.final || flags.getLsbD 3 } := by
  simp only [Interval.annotate, noteOf, carried_of_bit]

end

theorem openIs_iff {d : Dib} {number : Nat} :
    d.openIs number = true ↔ ∃ v, d.openIv = some v ∧ v.number = number := by
  unfold Dib.openIs
  split
  · next v hv => simp [hv]
  · next hn => simp [hn]

/-- The queue's first entry of a number without its flush mark is annotated. -/
theorem annotateEntry_of_first {number : Nat} {n : Note} {pre post : List Entry} {e : Entry}
    (hp : ∀ x ∈ pre, ¬(x.iv.number = number ∧ x.flush = false))
    (he : e.iv.number = number ∧ e.flush = false) : annotateEntry number n (pre ++ e :: post) =
      pre ++ { e with iv := e.iv.annotate n } :: post := by
  induction pre with
  | nil => exact if_pos he
  | cons x pre ih =>
    exact (if_neg (hp x (List.mem_cons_self ..))).trans
      (congrArg _ (ih fun y hy => hp y (List.mem_cons_of_mem _ hy)))

/-- An entry of the queue that ANNOTATE may address (R121). -/
def Dib.waitsFor (d : Dib) (number : Nat) : Prop :=
  ∃ e ∈ d.queue, e.iv.number = number ∧ e.flush = false

section
variable {s : State} {number : Nat} {n : Note}

theorem waits_iff {d : Dib} :
    d.queue.any (fun e => e.iv.number == number && !e.flush) = true ↔ d.waitsFor number := by
  simp [Dib.waitsFor]

variable (h0 : number ≠ 0)
include h0

theorem ownAnnotate_of_unknown (ho : ¬s.dib.openIs number = true) (hq : ¬s.dib.waitsFor number) :
    ownAnnotate number n s = refused .notFound s := by
  rw [ownAnnotate, if_neg h0, if_neg ho, if_neg (waits_iff.not.2 hq)]

theorem ownAnnotate_of_out (hf : s.dib.openIs number = true ∨ s.dib.waitsFor number)
    (hn : ¬n.inRange = true) : ownAnnotate number n s = refused .range s := by
  rw [ownAnnotate, if_neg h0]
  by_cases ho : s.dib.openIs number = true
  · rw [if_pos ho, if_neg hn]
  · rw [if_neg ho, if_pos (waits_iff.2 (hf.resolve_left ho)), if_neg hn]

variable (hn : n.inRange = true)
include hn

theorem ownAnnotate_of_open (ho : s.dib.openIs number = true) :
    ownAnnotate number n s = done (s.setDib (s.dib.onOpen (Interval.annotate n))) := by
  rw [ownAnnotate, if_neg h0, if_pos ho, if_pos hn]

theorem ownAnnotate_of_waiting (ho : ¬s.dib.openIs number = true) {pre post : List Entry} {e : Entry}
    (hq : s.dib.queue = pre ++ e :: post)
    (hp : ∀ x ∈ pre, ¬(x.iv.number = number ∧ x.flush = false))
    (he : e.iv.number = number ∧ e.flush = false) : ownAnnotate number n s =
      done (testHead (s.setDib
        { s.dib with queue := pre ++ { e with iv := e.iv.annotate n } :: post })) := by
  have hw : s.dib.waitsFor number := ⟨e, by simp [hq], he⟩
  rw [ownAnnotate, if_neg h0, if_neg ho, if_pos (waits_iff.2 hw), if_pos hn, hq,
    annotateEntry_of_first hp he]

end

/-- Settles O36: MARK INTERVAL by the open interval and the room made; ANNOTATE by the interval that it
addresses; the closed entry and the next interval; and the room by what must be forced out. -/
theorem intervalsAreMarkedAndAnnotated : Obligations.IntervalsAreMarkedAndAnnotated := by
  refine ⟨?_, ?_, fun iv bottom u => rfl, fun top u hn => ?_, fun u => ?_⟩
  · intro dt tag s hs h
    rw [show s.bu = h.bu by simp [h], show s.dib = h.dib by simp [h],
      show s.rws.hasPlace = h.rws.hasPlace by simp [h, State.heard, Rws.hasPlace]]
    intro c refuse
    have same {why : Reason} (e : ownMarkInterval h = refused why h) : refuse why :=
      congrArg _ (requestRow_unchanged hs e)
    refine ⟨fun hj => same (if_pos hj), fun hj => same ?_, fun hj =>
      ⟨fun hi => same (ownMarkInterval_of_none hj hi), fun iv hi => ?_⟩⟩
    · rw [ownMarkInterval, if_neg (by simp [hj]), if_pos hj]
    have marks := ownMarkInterval_of_open hj hi
    refine ⟨fun ht => same (marks.trans (if_pos ht)), fun ht =>
      ⟨makeRoom_of_free, makeRoom_of_full, fun u hm => same ?_, fun u hm => ?_⟩⟩
    · rw [marks, if_neg (Nat.not_lt.2 ht), closeAtMark_of_no_room hm]
      rfl
    · have e := marks.trans (if_neg (Nat.not_lt.2 ht))
      rw [closeAtMark_of_room hm] at e
      have k : Keeps h (closeInterval true h.dib.hwm u) :=
        closeInterval_keeps (makeRoom_keeps hm (.refl h))
      have hr : (closeInterval true h.dib.hwm u).reports = [] :=
        (reports_of_offBuilder (closeInterval_offBuilder u ..)).trans
          ((reports_of_makeRoom hm).trans (heard_reports.trans hs.2.1))
      rw [closeInterval_goOn ((openIv_of_makeRoom hm).trans hi)] at e k hr
      exact congrArg _ (requestRow_answering_keeps hs e k hr)
  · intro dt tag i lith bag remark flags s hs h
    rw [show s.dib = h.dib by simp [h]]
    intro c r refuse field noted above isOpen waits
    have hrep : h.reports = [] := heard_reports.trans hs.2.1
    have h0 : i.toNat = 0 ↔ i = 0 := BitVec.toNat_inj (y := 0)
    let n := noteOf lith.toNat bag.toNat remark.toNat flags
    have ho : h.dib.openIs i.toNat = true ↔ isOpen := openIs_iff
    have hn : n.inRange = true ↔ ¬above := inRange_noteOf ..
    have hnote : Interval.annotate n = noted := funext fun v => annotate_noteOf ..
    have same {why : Reason} (e : ownAnnotate i.toNat n h = refused why h) : refuse why :=
      congrArg _ (requestRow_unchanged hs e)
    have answers {t : State} (e : ownAnnotate i.toNat n h = done t) (k : Keeps h t)
        (hr : t.reports = h.reports) : c = .next (t.answering tag r .ok) :=
      congrArg _ (requestRow_answering_keeps hs e k (hr.trans hrep))
    refine ⟨fun hi => same (if_pos (h0.2 hi)), fun hi hno hq => same ?_, fun hi hf ha => same ?_,
      fun hi ha => ⟨fun hop => ?_, fun pre e post hno hq he hp => ?_⟩⟩
    · exact ownAnnotate_of_unknown (h0.not.2 hi) (ho.not.2 hno) fun ⟨e, he, hw⟩ => hq e he hw
    · exact ownAnnotate_of_out (h0.not.2 hi) (hf.imp ho.2 id) (hn.not.2 (not_not.2 ha))
    · have e := ownAnnotate_of_open (h0.not.2 hi) (hn.2 ha) (ho.2 hop)
      rw [hnote] at e
      exact answers e (Keeps.refl h).setDib rfl
    · have e := ownAnnotate_of_waiting (h0.not.2 hi) (hn.2 ha) (ho.not.2 hno) hq hp he
      rw [hnote] at e
      exact answers e (testHead_keeps (Keeps.refl h).setDib)
        (reports_of_offBuilder (testHeads_offBuilder _ _))
  · simp only [openInterval, nextNumber, if_pos hn]
    rfl
  · intro must
    have hm : ∀ d : Dib, d.mustForce = true ↔ must d := fun d => mustForce_iff
    refine ⟨fun hf => makeRoom_of_not_forced ((hm _).not.2 hf),
      fun hf => makeRoom_of_no_place ((hm _).2 hf), fun e rest hf hp hq => ?_⟩
    intro ready x body v
    have hx : x = e.committed := if_congr ready_iff.symm rfl rfl
    have hv : makeRoom u = (v, !v.dib.mustForce) := by
      rw [makeRoom_of_place ((hm _).2 hf) hp]
      simp only [commitHead_of_place hq hp, v, body, hx]
    exact ⟨fun hd => hv.trans (by rw [(hm _).2 hd]; rfl),
      fun hd => hv.trans (by rw [Bool.eq_false_iff.2 ((hm _).not.2 hd)]; rfl)⟩

end Sys2Proof.Machine
end

section
/-! PROOFS. Billing: the outbox, the FINAL ticket and CLOSE JOB. -/

namespace Sys2Proof.Machine

/-! ## What the outbox leaves (R165) -/

theorem handOver_reports (kind : RKind) (job : Nat) (body : List Byte) (fresh : Bool) (item : Option Nat)
    (s : State) : (handOver kind job body fresh item s).1.reports = s.reports := by
  fun_cases handOver kind job body fresh item s <;> rfl

/-- A part of the state that neither a hand-over nor a record's leaving of the outbox touches is left as it
is by the outbox. -/
theorem handOutbox_leaves {β : Type} (p : State → β)
    (hand : ∀ kind job body fresh item t, p (handOver kind job body fresh item t).1 = p t)
    (leave : ∀ (r : OutRec) q rest t, p (t.setBu { (r.taken q t.bu) with outbox := rest }) = p t)
    (n : Nat) (s : State) : p (handOutbox n s) = p s := by
  induction n generalizing s with
  | zero => rfl
  | succ n ih =>
    unfold handOutbox
    split
    · rfl
    · next r rest _ =>
      have hr : p (r.handOver s).1 = p s := by cases r <;> exact hand ..
      simp only []
      split
      · exact hr
      · exact (ih _).trans ((leave ..).trans hr)

/-- The same, of a record that joins it. -/
theorem joinOutbox_leaves {β : Type} (p : State → β)
    (hand : ∀ kind job body fresh item t, p (handOver kind job body fresh item t).1 = p t)
    (leave : ∀ (r : OutRec) q rest t, p (t.setBu { (r.taken q t.bu) with outbox := rest }) = p t)
    (join : ∀ l t, p (t.setBu { t.bu with outbox := l }) = p t)
    (r : OutRec) (s : State) : p (joinOutbox r s) = p s := by
  unfold joinOutbox
  simp only []
  split
  · exact (handOutbox_leaves p hand leave 1 _).trans (join ..)
  · exact join ..

theorem joinOutbox_reports (r : OutRec) (s : State) : (joinOutbox r s).reports = s.reports :=
  joinOutbox_leaves State.reports handOver_reports (fun _ _ _ _ => rfl) (fun _ _ => rfl) r s

/-- A ticket but for the sequence number that its record takes. -/
def Ticket.unrecorded (k : Ticket) : Ticket := { k with recSeq := none }

/-- The list's tickets but for those numbers. -/
def Bu.unrecorded (b : Bu) : List Ticket := b.tickets.map Ticket.unrecorded

theorem taken_unrecorded (r : OutRec) (q : Nat) (b : Bu) : (r.taken q b).unrecorded = b.unrecorded := by
  cases r with
  | jobOpened => rfl
  | ticket number =>
    simp only [OutRec.taken, Bu.unrecorded, List.map_map]
    refine List.map_congr_left fun t _ => ?_
    simp only [Function.comp]
    split <;> rfl

/-- The outbox gives the list's tickets the sequence numbers of their records, and nothing else. -/
theorem joinOutbox_unrecorded (r : OutRec) (s : State) :
    (joinOutbox r s).bu.unrecorded = s.bu.unrecorded :=
  joinOutbox_leaves (·.bu.unrecorded) (fun _ _ _ _ _ t => by rw [handOver_bu])
    (fun r q _ t => taken_unrecorded r q t.bu) (fun _ _ => rfl) r s

section
variable {b : Bu} {l : List Ticket} {k : Ticket} (h : b.unrecorded = (l ++ [k]).map Ticket.unrecorded)
include h

theorem numbers_of_unrecorded : b.tickets.map Ticket.number = l.map Ticket.number ++ [k.number] := by
  have e := congrArg (List.map Ticket.number) h
  simpa [Bu.unrecorded, Function.comp_def, Ticket.unrecorded] using e

/-- The newest ticket's number and total. -/
theorem finalFields_of_unrecorded : b.finalFields = be 4 k.number ++ be 5 k.total := by
  have e : b.tickets.getLast?.map Ticket.unrecorded = some k.unrecorded := by
    rw [← List.getLast?_map]
    exact (congrArg List.getLast? h).trans (by simp)
  obtain ⟨t, ht, hk⟩ := Option.map_eq_some_iff.1 e
  have hn : t.unrecorded.number = k.unrecorded.number := congrArg Ticket.number hk
  have hm : t.unrecorded.total = k.unrecorded.total := congrArg Ticket.total hk
  simp only [Ticket.unrecorded] at hn hm
  rw [Bu.finalFields, ht, ← hn, ← hm]

end

/-! ## The end of the open interval (R120) -/

/-- The open interval has joined the sample queue, closed at a bottom, and none follows (R116, R120). -/
def State.ended (iv : Interval) (bottom : Nat) (s : State) : State :=
  let e := closedEntry iv bottom s
  (s.setDib { s.dib with queue := s.dib.queue ++ [e], openIv := none }).raise
    (.intervalClosed iv.job iv.number iv.top bottom e.rop iv.meanPressure
      (BitVec.ofNat 8 (iv.flagByte false)))

section
variable {s u : State} {iv : Interval}

theorem closeInterval_stop (h : s.dib.openIv = some iv) (bottom : Nat) :
    closeInterval false bottom s = s.ended iv bottom := by
  rw [closeInterval, h]; rfl

theorem dibCloseJob_of_none (h : s.dib.openIv = none) : dibCloseJob s = some s := by
  rw [dibCloseJob, h]

section
variable (h : s.dib.openIv = some iv)
include h

theorem dibCloseJob_of_undrilled (ht : s.dib.hwm ≤ iv.top) :
    dibCloseJob s = some (s.setDib { s.dib with openIv := none }) := by
  rw [dibCloseJob, h]; exact if_neg (Nat.not_lt.2 ht)

theorem dibCloseJob_of_drilled (ht : iv.top < s.dib.hwm) : dibCloseJob s = closeAtMark false s := by
  rw [dibCloseJob, h]; exact if_pos ht

theorem dibCloseJob_of_room (ht : iv.top < s.dib.hwm) (hm : makeRoom s = (u, true)) :
    dibCloseJob s = some (u.ended iv s.dib.hwm) := by
  rw [dibCloseJob_of_drilled h ht, closeAtMark_of_room hm,
    closeInterval_stop ((openIv_of_makeRoom hm).trans h)]

end

/-- What ends the open interval leaves the billing unit, and hands nothing on. -/
theorem dibCloseJob_leaves (e : dibCloseJob s = some u) :
    Keeps s u ∧ u.bu = s.bu ∧ u.reports = s.reports := by
  cases hi : s.dib.openIv with
  | none =>
    rw [dibCloseJob_of_none hi] at e
    cases e
    exact ⟨.refl s, rfl, rfl⟩
  | some iv =>
    by_cases ht : iv.top < s.dib.hwm
    · rcases hm : makeRoom s with ⟨v, _ | _⟩
      · rw [dibCloseJob_of_drilled hi ht, closeAtMark_of_no_room hm] at e
        cases e
      · rw [dibCloseJob_of_room hi ht hm] at e
        cases e
        have hb : v.bu = s.bu := bu_of_makeRoom hm
        have hr : v.reports = s.reports := reports_of_makeRoom hm
        exact ⟨(makeRoom_keeps hm (.refl s)).setDib.raise, hb, hr⟩
    · rw [dibCloseJob_of_undrilled hi (Nat.not_lt.1 ht)] at e
      cases e
      exact ⟨(Keeps.refl s).setDib, rfl, rfl⟩

end

/-! ## The FINAL ticket (R167, R171) -/

section
variable {s : State}

theorem buildTicket_of_job {j : JobRec} {t : Tariff} (hj : s.bu.job = some j) (ht : s.bu.jobTariff = some t)
    (kind : TicketKind) (sec : Nat) :
    let k := mkTicket s.bu j t kind sec
    buildTicket kind sec s = (joinOutbox (.ticket k.number j.number (ticketBody k t s.bu.since)) (s.setBu
      { s.bu with
        since := .zero t.bands.length, sinceFrom := some sec, tickets := s.bu.tickets ++ [k]
        nextTicket := min (s.bu.nextTicket + 1) 4294967295 })).raise
          (.ticketReady j.number k.number kind k.total k.saturated) := by
  rw [buildTicket, hj, ht]; rfl

theorem testFinal_of_full (hf : s.bu.listFree = false) : testFinal s = s := by
  simp [testFinal, hf]

theorem testFinal_of_place (hc : s.bu.jobSt = .closing) (hw : s.bu.finalWaiting = true)
    (hf : s.bu.listFree = true) : testFinal s =
      let f := buildTicket .final ((s.bu.job.bind JobRec.closeSec).getD 0) s
      f.setBu { f.bu with finalWaiting := false, jobSt := .noJob } := by
  simp [testFinal, hc, hw, hf]

end

/-! ## CLOSE JOB (R170) -/

section
variable {s u : State} (hj : s.bu.jobSt = .opened ∨ s.bu.jobSt = .suspended)
include hj

theorem ownCloseJob_of_no_room (h : dibCloseJob s = none) : ownCloseJob s = refused .busy s := by
  rw [ownCloseJob, if_neg (ne_of_live hj).1, if_neg (ne_of_live hj).2, h]

theorem ownCloseJob_of_closed (h : dibCloseJob s = some u) : ownCloseJob s =
    let t := testFinal (enterClosing u)
    if t.bu.jobSt = .noJob then (t, .ok (be 4 s.now ++ t.bu.finalFields))
    else (t, .accept (be 4 s.now)) := by
  rw [ownCloseJob, if_neg (ne_of_live hj).1, if_neg (ne_of_live hj).2, h]

end

/-- Settles O42: the refusals in order, the end of the open interval by what it drilled and the room made,
and the FINAL ticket by the list's place. -/
theorem closeJobBillsAndEnds : Obligations.CloseJobBillsAndEnds := by
  intro dt tag s hs h
  rw [show s.bu = h.bu by simp [h], show s.dib = h.dib by simp [h], show s.tps = h.tps by simp [h],
    show s.rws.hasPlace = h.rws.hasPlace by simp [h, State.heard, Rws.hasPlace]]
  intro c refuse
  have hrep : h.reports = [] := heard_reports.trans hs.2.1
  have same {why : Reason} (e : ownCloseJob h = refused why h) : refuse why :=
    congrArg _ (requestRow_unchanged hs e)
  refine ⟨fun hj => same (if_pos hj), fun hj => same ?_, fun hj => ⟨dibCloseJob_of_none,
    fun iv => dibCloseJob_of_undrilled, fun iv hi ht hl hp => same ?_, fun iv hi ht hl hf =>
      dibCloseJob_of_room hi ht (makeRoom_of_free hl hf), fun iv u hi ht hm => ?_,
    fun iv u hi ht hm => dibCloseJob_of_room hi ht hm, fun hn => same (ownCloseJob_of_no_room hj hn),
    fun u j hu hjob => ?_⟩⟩
  · rw [ownCloseJob, if_neg (by simp [hj]), if_pos hj]
  · exact ownCloseJob_of_no_room hj ((dibCloseJob_of_drilled hi ht).trans
      (closeAtMark_of_no_room (makeRoom_of_full hl hp)))
  · exact (dibCloseJob_of_drilled hi ht).trans (closeAtMark_of_no_room hm)
  · obtain ⟨ku, hbu, hru⟩ := dibCloseJob_leaves hu
    have e := ownCloseJob_of_closed hj hu
    rw [← hbu] at hjob ⊢
    rw [State.now, ← ku.tps] at e
    rw [← ku.tps]
    intro closing
    have hcl : enterClosing u = closing := by
      simp only [enterClosing, hjob]
      rfl
    have hfree : u.lc.free := ku.free (heard_free hs.2.2)
    rw [hcl] at e
    refine ⟨fun hf => ?_, fun t hf ht => ?_⟩
    · have hfin : testFinal closing = closing := testFinal_of_full hf
      rw [hfin] at e
      exact congrArg _ (requestRow_of_own (t := closing) hs e (hru.trans hrep) hfree)
    · intro k f
      have htar : closing.bu.jobTariff = some t := by
        rw [← ht, Bu.jobTariff, Bu.jobTariff, hjob]
        rfl
      have hfin : testFinal closing = f.setBu { f.bu with finalWaiting := false, jobSt := .noJob } := by
        rw [testFinal_of_place (s := closing) rfl rfl hf, buildTicket_of_job rfl htar]
        rfl
      have hun : f.bu.unrecorded = (u.bu.tickets ++ [k]).map Ticket.unrecorded :=
        joinOutbox_unrecorded ..
      have hfrep : f.reports = [] := (joinOutbox_reports ..).trans (hru.trans hrep)
      have hff : f.lc.free := (joinOutbox_keeps (.refl _)).raise.free hfree
      rw [hfin] at e
      refine ⟨congrArg _ (requestRow_of_own hs ((e.trans (if_pos rfl)).trans ?_) hfrep hff),
        numbers_of_unrecorded hun⟩
      rw [← finalFields_of_unrecorded hun]
      rfl

end Sys2Proof.Machine
end

section
/-! PROOFS. The record store: reset meets the invariants, and every step keeps the form of the store and
the sizes of the tables (R2, R44, R52, R125, R159, R183). -/

namespace Sys2Proof.Machine

/-- Settles O4: at reset nothing is stored, no client requests, and every table is laid out. -/
theorem resetMeetsTheInvariants : Obligations.ResetMeetsTheInvariants :=
  ⟨rfl, rfl, rfl, rfl, rfl, rfl, rfl, rfl, rfl⟩

/-! ## The relation -/

/-- The numbers of places of the tables, in the order in which `State.tablesOk` names them. -/
def State.sizes (s : State) : List Nat :=
  [s.sfe.stab.length, s.params.length, s.rrc.registry.length, s.rrc.slots.length, s.rws.sectors.length,
    s.bu.tariffs.length, s.lc.notices.length]

theorem tablesOk_iff_sizes {s : State} : s.tablesOk ↔ s.sizes = [16, 27, 160, 40, 32, 4, 24] := by
  simp [State.tablesOk, State.sizes, Config.registrySize, Config.slotCount, Config.sectorCount]

/-- From `s` to `t` the store keeps its form, and the tables keep theirs. -/
structure Forms (s t : State) : Prop where
  store : s.storeOk → t.storeOk
  tables : s.tablesOk → t.tablesOk

theorem Forms.refl (s : State) : Forms s s := ⟨id, id⟩

theorem Forms.trans {s t u : State} (h : Forms s t) (g : Forms t u) : Forms s u :=
  ⟨g.store ∘ h.store, g.tables ∘ h.tables⟩

theorem Keeps.forms {s t : State} (k : Keeps s t) : Forms s t := ⟨k.store, k.tables⟩

theorem Stays.forms {s t : State} (k : Stays s t) : Forms s t := ⟨k.store, k.tables⟩

/-- A change of other things than the store and the tables' numbers of places. -/
theorem Forms.of_same {s t : State} (e : t.rws.store = s.rws.store) (l : t.sizes = s.sizes) :
    Forms s t :=
  ⟨fun h => by rwa [State.storeOk, e], fun h => tablesOk_iff_sizes.2 (l.trans (tablesOk_iff_sizes.1 h))⟩

/-! ## The owners of the requests

Each one answers with the state as it was, or with one in which fields were written that are no table, or
one place of a table; what the blocks do then, `Keeps` and `Stays` speak of. -/

section
variable {s : State}

theorem storeParam_forms (s : State) (n : Nat) (v : Int) : Forms s (s.storeParam n v) :=
  .of_same rfl (by simp [State.sizes, State.storeParam])

theorem afterStore_forms (s : State) (n : Nat) (old new : Int) : Forms s (afterStore n old new s) := by
  fun_cases afterStore with
  | case1 => exact (deliverLength_keeps (.refl s)).forms
  | case2 => exact (testAllLimits_keeps (.refl s)).forms
  | case3 => exact .refl s

theorem ownHeadPreset_forms {v : Int} : Forms s (ownHeadPreset v s).1 := by
  fun_cases ownHeadPreset with
  | case1 => exact .refl s
  | case2 _ x t u =>
    have referenced : Forms t u := .of_same rfl rfl
    exact ((storeParam_forms s 17 x).trans referenced).trans
      (settle_keeps (hsHead_keeps (dibEncoder_keeps (.refl u)))).forms

theorem ownIndexPreset_forms {v : Int} : Forms s (ownIndexPreset v s).1 := by
  fun_cases ownIndexPreset <;> exact .of_same rfl rfl

theorem ownDepthOffset_forms {v : Int} : Forms s (ownDepthOffset v s).1 := by
  fun_cases ownDepthOffset with
  | case1 => exact (recompute_keeps (Keeps.refl s).setDib).forms
  | case2 => exact .refl s

theorem ownSetParameter_forms {n : Nat} {v : Int} : Forms s (ownSetParameter n v s).1 := by
  fun_cases ownSetParameter with
  | case1 => exact .refl s
  | case2 => exact ownHeadPreset_forms
  | case3 => exact ownIndexPreset_forms
  | case4 => exact ownDepthOffset_forms
  | case5 => exact (storeParam_forms ..).trans (afterStore_forms ..)

theorem ownSetPump_forms {pump : Byte} {d e : Nat} : Forms s (ownSetPump pump d e s).1 := by
  fun_cases ownSetPump with
  | case1 => exact .refl s
  | case2 => exact (storeParam_forms ..).trans (storeParam_forms ..)

theorem ownAckNotices_forms {kinds : KindSet} : Forms s (ownAckNotices kinds s).1 := by
  fun_cases ownAckNotices with
  | case1 t u =>
    have acked : Forms s t := .of_same rfl (by simp [t, State.sizes, ackSet])
    show Forms s (if _ then _ else _)
    split
    · exact acked.trans (clearGroupFlag_keeps (.refl t)).forms
    · exact acked

theorem ownClearAll_forms : Forms s (ownClearAll s).1 := by
  fun_cases ownClearAll <;> exact .of_same rfl rfl

theorem ownSetClock_forms {second : Nat} : Forms s (ownSetClock second s).1 := by
  fun_cases ownSetClock <;> exact .of_same rfl rfl

theorem ownSetWatch_forms {sel pat : SwitchSet} : Forms s (ownSetWatch sel pat s).1 := by
  have k : Keeps s (writeGroup .g3 sel pat s).1 := writeGroup_fst (.refl s)
  show Forms s (if _ then _ else _)
  split
  · exact k.raise.forms
  · exact k.forms

theorem ownDeclareAddition_forms {v : Int} : Forms s (ownDeclareAddition v s).1 := by
  fun_cases ownDeclareAddition with
  | case1 | case2 => exact .refl s
  | case3 => exact (declareVolume_keeps (.refl s)).forms

theorem ownReadBalance_forms {part : Nat} : Forms s (ownReadBalance part s).1 := by
  fun_cases ownReadBalance <;> exact .refl s

theorem ownAcceptLatch_forms {code : Byte} : Forms s (ownAcceptLatch code s).1 := by
  have k {l : LatchName} : Forms s (settle (clearLatch l .accepted s)) :=
    (settle_keeps (clearLatch_keeps (.refl s))).forms
  fun_cases ownAcceptLatch with
  | case1 | case4 => exact .refl s
  | case2 | case3 => exact k

theorem ownEnterWatch_forms : Forms s (ownEnterWatch s).1 := by
  fun_cases ownEnterWatch with
  | case1 | case3 => exact .refl s
  | case2 => exact (settle_keeps (enterWatch_keeps (.refl s))).forms

theorem ownLeaveWatch_forms : Forms s (ownLeaveWatch s).1 := by
  fun_cases ownLeaveWatch with
  | case1 => exact (settle_keeps (leaveWatch_keeps (.refl s))).forms
  | case2 => exact .refl s

/-- The registry and the carousel are written within their numbers of places (R44, R52). -/
theorem setRrc_forms {x : Rrc} (e : x.registry.length = s.rrc.registry.length)
    (e' : x.slots.length = s.rrc.slots.length) : Forms s (s.setRrc x) :=
  ((Keeps.refl s).setRrc e e').forms

theorem ownRegisterRod_forms {x : Serial} {len cls : Nat} :
    Forms s (ownRegisterRod x len cls s).1 := by
  fun_cases ownRegisterRod with
  | case6 => exact setRrc_forms (List.length_set ..) rfl
  | case1 | case2 | case3 | case4 | case5 => exact .refl s

theorem ownRetireRod_forms {x : Serial} : Forms s (ownRetireRod x s).1 := by
  fun_cases ownRetireRod with
  | case5 => exact setRrc_forms (Rrc.moveRod_registry_length ..) rfl
  | case1 | case2 | case3 | case4 => exact .refl s

theorem ownLoadSlot_forms {x : Serial} {named : Option Nat} : Forms s (ownLoadSlot x named s).1 := by
  fun_cases ownLoadSlot with
  | case1 | case2 | case3 | case4 | case5 => exact .refl s
  | case6 => exact (beginLoader_keeps ..).forms

theorem ownUnloadSlot_forms {n : Nat} : Forms s (ownUnloadSlot n s).1 := by
  fun_cases ownUnloadSlot with
  | case1 | case2 | case3 | case4 => exact .refl s
  | case5 => exact (beginLoader_keeps ..).forms

theorem armEmptied_keeps {s0 : State} (h : Keeps s0 s) : Keeps s0 (armEmptied s) :=
  settle_keeps (setDepthHold_keeps h)

theorem ownPlaceRod_forms {d : Byte} : Forms s (ownPlaceRod d s).1 := by
  fun_cases ownPlaceRod with
  | case4 | case9 => exact (armEmptied_keeps ((Keeps.refl s).setRrc (by simp) (by simp))).forms
  | case7 =>
    exact (armEmptied_keeps (deliverLength_keeps ((Keeps.refl s).setRrc (by simp) (by simp)))).forms
  | case1 | case2 | case3 | case5 | case6 | case8 => exact .refl s

theorem startReply_forms {op : Op} {slot rod : Nat} {trip : Bool} :
    Forms s (startReply op slot rod trip s).1 :=
  (settle_keeps (startOp_keeps ((Keeps.refl s).setRrc (by simp) (by simp)))).forms

theorem takeOperation_forms {op : Op} {named : Option Nat} :
    Forms s (takeOperation op named s).1 := by
  fun_cases takeOperation with
  | case1 | case2 | case3 => exact .refl s
  | case4 => exact startReply_forms

theorem ownStartTrip_forms {d : Byte} {n : Nat} : Forms s (ownStartTrip d n s).1 := by
  fun_cases ownStartTrip with
  | case1 | case2 | case3 | case4 | case5 => exact .refl s
  | case6 =>
    refine Forms.trans ?_ startReply_forms
    exact .of_same rfl rfl

theorem ownStopTrip_forms : Forms s (ownStopTrip s).1 := by
  fun_cases ownStopTrip with
  | case1 | case3 => exact .of_same rfl rfl
  | case2 => exact (endTrip_keeps (.refl s)).forms

theorem ownResume_forms : Forms s (ownResume s).1 := by
  fun_cases ownResume with
  | case1 => exact (settle_keeps (resumeOp_keeps (.refl s))).forms
  | case3 => exact (settle_keeps (tripNext_keeps (clearStopFlags_keeps (.refl s)))).forms
  | case2 | case4 => exact .refl s

theorem ownAbort_forms : Forms s (ownAbort s).1 := by
  fun_cases ownAbort with
  | case1 => exact .refl s
  | case2 => exact (settle_keeps (abortOp_keeps (.refl s))).forms
  | case3 => exact (endTrip_keeps (.refl s)).forms

theorem ownManualMove_forms {fn d : Byte} {ms : Nat} : Forms s (ownManualMove fn d ms s).1 := by
  fun_cases ownManualMove with
  | case5 => exact (settle_keeps (requestMotion_keeps (.refl s))).forms
  | case1 | case2 | case3 | case4 | case6 => exact .refl s

theorem ownDiverter_forms {d : Byte} : Forms s (ownDiverter d s).1 := by
  fun_cases ownDiverter with
  | case1 | case2 | case3 => exact .refl s
  | case4 => exact (settle_keeps (requestMotion_keeps (.refl s))).forms

theorem ownMarkInterval_forms : Forms s (ownMarkInterval s).1 := by
  fun_cases ownMarkInterval with
  | case6 => exact (closeAtMark_keeps (by assumption) (.refl s)).forms
  | case1 | case2 | case3 | case4 | case5 => exact .refl s

theorem ownAnnotate_forms {number : Nat} {n : Note} : Forms s (ownAnnotate number n s).1 := by
  fun_cases ownAnnotate with
  | case2 => exact .of_same rfl rfl
  | case4 => exact (testHead_keeps (Keeps.refl s).setDib).forms
  | case1 | case3 | case5 | case6 => exact .refl s

theorem ownReadIntervals_forms {n : Nat} : Forms s (ownReadIntervals n s).1 := by
  fun_cases ownReadIntervals <;> exact .refl s

theorem ownWriteTariff_forms {t : Tariff} : Forms s (ownWriteTariff t s).1 := by
  fun_cases ownWriteTariff with
  | case3 => exact .of_same rfl (by simp [State.sizes, done])
  | case1 | case2 | case4 => exact .refl s

theorem dibOpenJob_keeps {s0 : State} {job : Nat} {start : Option Nat} (h : Keeps s0 s) :
    Keeps s0 (dibOpenJob job start s) :=
  testHwm_keeps (openInterval_keeps (testHead_keeps h.setDib))

theorem openJob_forms {job id : Nat} {start : Option Nat} {t : Tariff} :
    Forms s (openJob job id start t s) := by
  refine Stays.forms (.keeps (joinOutbox_keeps (.refl _)) (Stays.setBu ?_ rfl))
  exact .keeps (dibOpenJob_keeps (.refl _)) ((Stays.refl s).setBu rfl)

theorem ownOpenJob_forms {job id : Nat} {start : Option Nat} :
    Forms s (ownOpenJob job id start s).1 := by
  fun_cases ownOpenJob with
  | case8 => exact openJob_forms
  | case1 | case2 | case3 | case4 | case5 | case6 | case7 => exact .refl s

theorem ownHoldJob_forms : Forms s (ownHoldJob s).1 := by
  fun_cases ownHoldJob <;> exact .of_same rfl rfl

theorem ownReleaseJob_forms : Forms s (ownReleaseJob s).1 := by
  fun_cases ownReleaseJob <;> exact .of_same rfl rfl

theorem ownDeclareBreakdown_forms : Forms s (ownDeclareBreakdown s).1 := by
  fun_cases ownDeclareBreakdown <;> exact .of_same rfl rfl

theorem ownEndBreakdown_forms : Forms s (ownEndBreakdown s).1 := by
  fun_cases ownEndBreakdown <;> exact .of_same rfl rfl

theorem ownAddMaterial_forms {item qty : Nat} : Forms s (ownAddMaterial item qty s).1 := by
  fun_cases ownAddMaterial <;> exact .of_same rfl rfl

theorem ownIssueTicket_forms : Forms s (ownIssueTicket s).1 := by
  fun_cases ownIssueTicket with
  | case1 | case2 | case3 => exact .refl s
  | case4 => exact (buildTicket_stays (.refl s)).forms

theorem ownCloseJob_forms : Forms s (ownCloseJob s).1 := by
  have k {t : State} (e : dibCloseJob s = some t) : Forms s (testFinal (enterClosing t)) :=
    (testFinal_stays (Stays.setBu (x := (enterClosing t).bu) (dibCloseJob_leaves e).1.stays rfl)).forms
  fun_cases ownCloseJob with
  | case1 | case2 | case3 => exact .refl s
  | case4 | case5 => exact k ‹_›

theorem ownCollectTicket_forms {n : Nat} : Forms s (ownCollectTicket n s).1 := by
  fun_cases ownCollectTicket with
  | case1 | case2 | case3 => exact .refl s
  | case4 => exact (testFinal_stays ((Stays.refl s).setBu (x := s.bu.collect n) rfl)).forms

theorem ownReadAccruals_forms {p : Nat} : Forms s (ownReadAccruals p s).1 := by
  fun_cases ownReadAccruals <;> exact .refl s

/-- Every owner keeps both; a read changes nothing. -/
theorem own_forms (r : Request) : Forms s (own r s).1 := by
  cases r with
  | setParameter => exact ownSetParameter_forms
  | setPump => exact ownSetPump_forms
  | setReturnMeter => exact storeParam_forms ..
  | setNoticeMask => exact .of_same rfl rfl
  | ackNotices => exact ownAckNotices_forms
  | clearAll => exact ownClearAll_forms
  | setClock => exact ownSetClock_forms
  | setWatch => exact ownSetWatch_forms
  | declareAddition => exact ownDeclareAddition_forms
  | readBalance => exact ownReadBalance_forms
  | acceptLatch => exact ownAcceptLatch_forms
  | enterHoleWatch => exact ownEnterWatch_forms
  | leaveHoleWatch => exact ownLeaveWatch_forms
  | registerRod => exact ownRegisterRod_forms
  | retireRod => exact ownRetireRod_forms
  | loadSlot => exact ownLoadSlot_forms
  | unloadSlot => exact ownUnloadSlot_forms
  | placeRod => exact ownPlaceRod_forms
  | addRod | removeRod => exact takeOperation_forms
  | startTrip => exact ownStartTrip_forms
  | stopTrip => exact ownStopTrip_forms
  | resume => exact ownResume_forms
  | abort => exact ownAbort_forms
  | manualMove => exact ownManualMove_forms
  | diverter => exact ownDiverter_forms
  | markInterval => exact ownMarkInterval_forms
  | annotate => exact ownAnnotate_forms
  | readIntervals => exact ownReadIntervals_forms
  | writeTariff => exact ownWriteTariff_forms
  | openJob => exact ownOpenJob_forms
  | holdJob => exact ownHoldJob_forms
  | releaseJob => exact ownReleaseJob_forms
  | declareBreakdown => exact ownDeclareBreakdown_forms
  | endBreakdown => exact ownEndBreakdown_forms
  | addMaterial => exact ownAddMaterial_forms
  | issueTicket => exact ownIssueTicket_forms
  | closeJob => exact ownCloseJob_forms
  | collectTicket => exact ownCollectTicket_forms
  | readAccruals => exact ownReadAccruals_forms
  | identify | getParameter | readSignals | readTally | readLog | readTariff | readTicket =>
    exact .refl s

/-! ## The link -/

theorem deal_forms (r : Request) : Forms s (deal r s).1 := by
  fun_cases deal with
  | case1 | case2 => exact .refl s
  | case3 => exact own_forms r

theorem answer_forms {kind : Byte} {res : Except Reason Request} : Forms s (answer kind res s).1 := by
  fun_cases answer with
  | case1 | case2 => exact .refl s
  | case3 => exact deal_forms _

theorem serve_forms {kind tag : Byte} {res : Except Reason Request} : Forms s (serve kind tag res s) :=
  .trans answer_forms (.of_same rfl rfl)

theorem arrives_forms {f : Frame} {res : Except Reason Request} : Forms s (arrives f res s) := by
  fun_cases arrives with
  | case1 t => exact .trans (t := t) (.of_same rfl rfl) serve_forms
  | case2 | case3 => exact .of_same rfl rfl

theorem takeWaiting_forms : Forms s (takeWaiting s) := by
  fun_cases takeWaiting with
  | case2 =>
    refine Forms.trans ?_ serve_forms
    exact .of_same rfl rfl
  | case1 | case3 => exact .refl s

/-- A cold start leaves the store's contents and lays out every table anew (R143, R194). -/
theorem coldStart_forms : Forms s (coldStart s) :=
  ⟨id, fun _ => ⟨rfl, rfl, rfl, rfl, rfl, rfl, rfl⟩⟩

theorem sendNotice_forms {code : Nat} : Forms s (sendNotice code s) := (sendNotice_stays (.refl s)).forms

theorem transmitted_forms : Forms s (transmitted s) := by
  fun_cases transmitted with
  | case1 => exact .refl s
  | case2 _ _ t => exact .trans (t := t) (.of_same rfl rfl) coldStart_forms
  | case3 _ _ t | case5 _ _ t => exact .trans (t := t) (.of_same rfl rfl) takeWaiting_forms
  | case4 _ _ t => exact .trans (t := t) (.of_same rfl rfl) (.trans sendNotice_forms (.of_same rfl rfl))

theorem lockOn_forms {f : Frame} : Forms s (lockOn f s) := by
  fun_cases lockOn with
  | case1 t => exact .trans (t := t) (.of_same rfl rfl) arrives_forms

theorem firstByte_forms {b : Byte} {bad : Bool} : Forms s (firstByte b bad s) := by
  fun_cases firstByte <;> exact .of_same rfl rfl

theorem huntByte_forms {b : Byte} {bad : Bool} : Forms s (huntByte b bad s) := by
  unfold huntByte
  split
  · exact .refl s
  · fun_cases huntTake with
    | case1 => exact firstByte_forms
    | case2 => exact .trans (t := nextTrial s) (.of_same rfl rfl) firstByte_forms
    | case6 => exact lockOn_forms
    | case3 | case4 | case5 => exact .of_same rfl rfl

theorem frameIn_forms {f : Frame} {res : Except Reason Request} : Forms s (frameIn f res s) := by
  fun_cases frameIn with
  | case1 => exact arrives_forms
  | case2 => exact List.foldlRecOn f.bytes _ (.refl s) fun _ h _ _ => h.trans huntByte_forms

theorem rehunt_forms : Forms s (rehunt s) := by
  have requeued : Forms s (s.setLc { s.lc.stopped with notices := s.lc.notices.map Notice.requeue }) :=
    .of_same rfl (by simp [State.sizes])
  fun_cases rehunt with
  | case1 => exact requeued.trans coldStart_forms
  | case2 => exact requeued

/-! ## Power -/

theorem recoverStart_forms : Forms s (recoverStart s) := (recoverStart_keeps (.refl s)).forms

/-- A warm recovery acquires the inputs afresh and keeps every other table (R17, R190). -/
theorem warmed_forms {secs : Nat} (s : State) : Forms s (s.warmed secs) :=
  ⟨id, fun ⟨_, hp, hr, hs, hk, ht, hn⟩ =>
    ⟨rfl, (List.length_set ..).trans hp, hr, hs, hk, ht, (List.length_map ..).trans hn⟩⟩

theorem powerReturns_forms {secs : Nat} {good : Bool} : Forms s (powerReturns secs good s) := by
  by_cases h : s.tps.valid = true ∧ good = true
  · obtain ⟨hv, rfl⟩ := h
    rw [powerReturns_warm hv]
    have started : Forms s (recoverStart (s.warmed secs)) := (warmed_forms s).trans recoverStart_forms
    split
    · exact started.trans (storeReady_stays (.refl _)).forms
    · exact started
  · rw [powerReturns_cold (by simpa [imp_iff_not_or] using h)]
    exact coldStart_forms

/-- The warning ends the block program in progress (R141). -/
theorem powerFails_forms : Forms s (powerFails s) := by
  have stopped (u : State) : Forms u (u.setRws (rwsPowerFail u.rws)) :=
    ((Keeps.refl u).setRws storeWf_rwsPowerFail rwsPowerFail_sectors_length).forms
  exact .trans (.trans (disarmGroup_keeps (.refl s)).forms (stopped _)) (.of_same rfl rfl)

/-! ## The rows -/

theorem Sfe.elapse_stab_length (dt : Nat) (f : Sfe) : (f.elapse dt).stab.length = f.stab.length := by
  unfold Sfe.elapse
  split <;> simp

theorem elapse_forms {dt : Nat} : Forms s (s.elapse dt) := by
  unfold State.elapse
  split
  · exact .refl s
  · exact .of_same rfl (congrArg (List.cons · _) (Sfe.elapse_stab_length dt s.sfe))

theorem whenOn_forms {dt : Nat} {f : State → State} (hf : ∀ u, Forms u (f u)) :
    Forms s (whenOn dt s f) := by
  unfold whenOn
  split
  · exact .refl s
  · exact elapse_forms.trans (hf _)

theorem finish_forms (s : State) : Forms s (finish s) := (finish_stays (.refl s)).forms

theorem event_forms {dt : Nat} {f : State → State} (hf : ∀ u, Forms u (f u)) :
    Forms s (event dt f s) :=
  whenOn_forms fun u => (hf u).trans (finish_forms _)

theorem Forms.ite {t u : State} {c : Prop} [Decidable c] (h : Forms s t) (g : Forms s u) :
    Forms s (if c then t else u) := by
  split
  · exact h
  · exact g

/-- An event that acts only when it is due (log 9). -/
theorem dueEvent_forms {dt : Nat} {p : State → Prop} [DecidablePred p] {f : State → State}
    (hf : ∀ u, Forms u (f u)) : Forms s (event dt (fun u => if p u then f u else u) s) :=
  event_forms fun u => (hf u).ite (.refl u)

theorem requestRow_forms {dt : Nat} {tag : Byte} {r : Request} : Forms s (requestRow dt tag r s) :=
  whenOn_forms fun _ => frameIn_forms.trans (finish_forms _)

theorem frameRow_forms {dt : Nat} {f : Frame} : Forms s (frameRow dt f s) :=
  whenOn_forms fun u => .trans (.ite frameIn_forms (.refl u)) (finish_forms _)

theorem rawChange_forms {sw : Switch} {on : Bool} (u : State) :
    Forms u (u.setSfe (u.sfe.rawChange sw on)) := by
  refine .of_same rfl (congrArg (List.cons · _) (?_ : (u.sfe.rawChange sw on).stab.length = _))
  fun_cases Sfe.rawChange sw on u.sfe with
  | case1 => rfl
  | case2 | case3 => exact List.length_set ..

end

/-- Every command keeps both: a request by its owner, an event by what it does. -/
theorem exec_forms (s : State) (c : Instr) : ∃ t, exec c s = .next t ∧ Forms s t := by
  have same (u : State) {t : State} (e : t.rws.store = u.rws.store) (l : t.sizes = u.sizes) :
      Forms u t := .of_same e l
  cases hr : c.request with
  | some x =>
    obtain ⟨dt, tag, r⟩ := x
    exact ⟨_, exec_of_request hr, requestRow_forms⟩
  | none =>
    cases c with
    | unknownKindRequest => exact ⟨_, rfl, frameRow_forms⟩
    | frameReceived => exact ⟨_, rfl, frameRow_forms⟩
    | huntByte => exact ⟨_, rfl, event_forms fun _ => huntByte_forms⟩
    | interByteTimeout => exact ⟨_, rfl, dueEvent_forms fun u => same u rfl rfl⟩
    | silenceTimerExpiry => exact ⟨_, rfl, dueEvent_forms fun _ => rehunt_forms⟩
    | transmitComplete => exact ⟨_, rfl, event_forms fun _ => transmitted_forms⟩
    | frameDropped => exact ⟨_, rfl, event_forms .refl⟩
    | switchRawChange =>
      refine ⟨_, rfl, .ite (same s rfl rfl) (event_forms rawChange_forms)⟩
    | switchChangeTaken => exact ⟨_, rfl, dueEvent_forms fun u => (takeChange_stays (.refl u)).forms⟩
    | acquisitionEnd => exact ⟨_, rfl, dueEvent_forms fun u => (acquisitionOver_stays (.refl u)).forms⟩
    | strokePulse => exact ⟨_, rfl, event_forms fun u => (takeStroke_stays (.refl u)).forms⟩
    | returnMeterPulse => exact ⟨_, rfl, event_forms fun u => (takeReturn_stays (.refl u)).forms⟩
    | rotationPulse => exact ⟨_, rfl, event_forms fun u => (takeRotation_stays (.refl u)).forms⟩
    | headEncoderStep => exact ⟨_, rfl, event_forms fun u => (takeEncoder_stays (.refl u)).forms⟩
    | rotatingIndicationExpiry => exact ⟨_, rfl, dueEvent_forms fun u => same u rfl rfl⟩
    | analogueSample => exact ⟨_, rfl, dueEvent_forms fun u => (takeSample_stays (.refl u)).forms⟩
    | pumpGapTimerExpiry => exact ⟨_, rfl, dueEvent_forms fun u => (cmPumpStopped_keeps (.refl u)).forms⟩
    | secondTick =>
      exact ⟨_, rfl, .ite (same s rfl rfl) (event_forms fun u => (takeSecond_stays (.refl u)).forms)⟩
    | windowClose => exact ⟨_, rfl, dueEvent_forms fun u => (closeWindow_keeps (.refl u)).forms⟩
    | flowCheckTimerExpiry => exact ⟨_, rfl, dueEvent_forms fun u => (passCheck_stays (.refl u)).forms⟩
    | captureTimerExpiry => exact ⟨_, rfl, dueEvent_forms fun u => (endCapture_keeps (.refl u)).forms⟩
    | motionTimeout => exact ⟨_, rfl, event_forms fun u => (ahaTimeout_keeps (.refl u)).forms⟩
    | stallTimerExpiry => exact ⟨_, rfl, dueEvent_forms fun u => (stallOver_stays (.refl u)).forms⟩
    | graceExpiry => exact ⟨_, rfl, event_forms fun u => (graceOver_stays (.refl u)).forms⟩
    | eraseComplete =>
      refine ⟨_, rfl, event_forms fun u => ?_⟩
      split
      · exact (eraseOver_stays (.refl u)).forms
      · exact .refl u
    | blockProgramComplete => exact ⟨_, rfl, dueEvent_forms fun u => (blockOver_stays (.refl u)).forms⟩
    | voidComplete =>
      refine ⟨_, rfl, event_forms fun u => ?_⟩
      split
      · exact .ite (voidOver_stays (.refl u)).forms (.refl u)
      · exact .refl u
    | verifyBlockRead => exact ⟨_, rfl, dueEvent_forms fun u => (verifyOver_stays (.refl u)).forms⟩
    | coldStartScanEnd => exact ⟨_, rfl, dueEvent_forms fun u => (scanOver_stays (.refl u)).forms⟩
    | powerFailWarning => exact ⟨_, rfl, whenOn_forms fun _ => powerFails_forms⟩
    | powerUp => exact ⟨_, rfl, .ite powerReturns_forms (.refl s)⟩
    | _ => cases hr

/-- A step is its command's, and an empty queue idles. -/
theorem step_forms {s t : State} (e : step s = .next t) : Forms s t := by
  unfold step at e
  split at e
  · cases e; exact .refl s
  · next c rest _ =>
    obtain ⟨u, hu, ok⟩ := exec_forms (s.setPending rest) c
    cases hu.symm.trans e
    exact .trans (t := s.setPending rest) (.of_same rfl rfl) ok

/-- Settles O5: both parts by what a step keeps. -/
theorem everyStepKeepsTheStoreFormAndTheTables :
    Obligations.EveryStepKeepsTheStoreFormAndTheTables :=
  ⟨fun _ _ h e => (step_forms e).store h, fun _ _ h e => (step_forms e).tables h⟩

end Sys2Proof.Machine
end

section
/-! PROOFS. The record store: the writer's events, the placing of a write, hand-overs and freed places. -/

namespace Sys2Proof.Machine

/-! ## Sectors (R125, R129) -/

theorem find?_eraseSector (store : List Block) (sec a : Nat) :
    (eraseSector store sec).find? (fun b => b.addr == a) =
      if a / 256 = sec then none else store.find? (fun b => b.addr == a) := by
  rw [eraseSector, List.find?_filter]
  split
  · next h =>
    refine List.find?_eq_none.2 fun b _ => ?_
    simp only [bne_iff_ne, beq_iff_eq, decide_eq_true_eq]
    rintro ⟨hn, rfl⟩
    exact hn h
  · next h =>
    refine congrArg (List.find? · store) (funext fun b => ?_)
    by_cases hb : b.addr = a
    · simp [hb, Config.sectorBlocks, h]
    · simp [hb]

/-- An erased sector's blocks read erased (R125). -/
theorem blockAt_eraseSector_self {sec a : Nat} (store : List Block) (h : a / 256 = sec) :
    blockAt (eraseSector store sec) a = Block.erased a := by
  rw [blockAt, find?_eraseSector, if_pos h]
  rfl

/-- An erase touches no other sector (R125). -/
theorem blockAt_eraseSector_of_ne {sec a : Nat} (store : List Block) (h : a / 256 ≠ sec) :
    blockAt (eraseSector store sec) a = blockAt store a := by
  rw [blockAt, find?_eraseSector, if_neg h]
  rfl

/-! ## The write in hand (R132, R134) -/

/-- The sector index after a block of the write in hand: its first block's sector takes the record's
number (R128). -/
def Rws.indexed (r : Rws) (w : Write) (rec : Record) : List Sector :=
  if w.done = 0 ∧ r.sectors.getD ((w.start + w.done) / 256) .erased = .erased then
    r.sectors.set ((w.start + w.done) / 256) (.inUse (some rec.seq))
  else r.sectors

section
variable {r : Rws} {w : Write} {rec : Record}

/-- The record of the write in hand, by its source (R132). -/
theorem inHand_iff (hw : r.write = some w) : r.inHand = some rec ↔
    (w.src = .queue ∧ r.queue.head? = some rec) ∨ (w.src = .slot ∧ r.slot = some rec) := by
  rw [Rws.inHand, hw]
  cases h : w.src <;> simp [h]

section
variable (hw : r.write = some w) (hr : r.inHand = some rec)
include hw hr

theorem allProgrammed_iff : r.allProgrammed = true ↔ rec.blocks ≤ w.done := by
  rw [Rws.allProgrammed, hw, hr]
  exact decide_eq_true_iff

theorem blockDone_of_hand : blockDone r =
    { r with
      store := programBlock r.store (w.start + w.done) (rec.pattern w.done)
      head := (w.start + w.done + 1) % 8192
      sectors := r.indexed w rec
      write := some { w with done := w.done + 1 } } := by
  have index : r.indexed w rec =
      if w.done = 0 && r.sectors.getD (sectorOf (w.start + w.done)) .erased == .erased then
        r.sectors.set (sectorOf (w.start + w.done)) (.inUse (some rec.seq))
      else r.sectors :=
    if_congr (by simp [sectorOf, Config.sectorBlocks]) rfl rfl
  rw [blockDone, hw, hr, index]
  rfl

theorem blockDone_write : (blockDone r).write = some { w with done := w.done + 1 } := by
  rw [blockDone_of_hand hw hr]

/-- The same record is in hand after a block of it (R134). -/
theorem blockDone_inHand : (blockDone r).inHand = some rec := by
  rw [inHand_iff (blockDone_write hw hr), blockDone_of_hand hw hr]
  exact (inHand_iff hw).1 hr

theorem blockDone_allProgrammed_iff : (blockDone r).allProgrammed = true ↔ rec.blocks ≤ w.done + 1 :=
  allProgrammed_iff (blockDone_write hw hr) (blockDone_inHand hw hr)

end

theorem toVerifySlot_of_slot (hw : r.write = some w) (h : w.src = .slot) : toVerifySlot r = r := by
  unfold toVerifySlot
  rw [hw]
  split
  · next e _ => cases e; exact if_neg (by simp [h])
  · rfl

theorem toVerifySlot_of_queue {rest : List Record} (hw : r.write = some w) (h : w.src = .queue)
    (hq : r.queue = rec :: rest) : toVerifySlot r =
      { r with queue := rest, slot := some rec, write := some { w with src := .slot } } := by
  unfold toVerifySlot
  rw [hw, hq]
  exact if_pos h

/-! ## Placing (R133) -/

/-- Where a record's write starts, the head standing at `head` (R133). -/
def Record.startAt (first : Bool) (head : Nat) (rec : Record) : Nat :=
  let h := if first = true ∧ rec.fresh = true ∧ head % 256 ≠ 0 then (head / 256 + 1) % 32 * 256 else head
  if 256 - h % 256 < rec.blocks then (h / 256 + 1) % 32 * 256 else h

/-- The write in hand stands at its start, the head with it (R133). -/
def Rws.placed (first : Bool) (w : Write) (rec : Record) (r : Rws) : Rws :=
  { r with
    head := rec.startAt first r.head
    write := some { w with start := rec.startAt first r.head, done := 0, voiding := none, mark := none } }

theorem placeWrite_of_hand (hw : r.write = some w) (hr : r.inHand = some rec) (first : Bool) :
    placeWrite first r =
      let sec := rec.startAt first r.head / 256
      if rec.startAt first r.head % 256 = 0 ∧ r.sectors.getD sec .erased ≠ .erased then
        beginErase sec (r.placed first w rec)
      else beginProgram (r.placed first w rec) := by
  have start : rec.startAt first r.head =
      let h := if first && rec.fresh && r.head % Config.sectorBlocks != 0 then nextSector r.head
        else r.head
      if Config.sectorBlocks - h % Config.sectorBlocks < rec.blocks then nextSector h else h := by
    have h1 : (first = true ∧ rec.fresh = true ∧ r.head % 256 ≠ 0) ↔
        (first && rec.fresh && r.head % Config.sectorBlocks != 0) = true := by
      simp [Config.sectorBlocks, and_assoc]
    simp only [Record.startAt, h1]
    rfl
  unfold placeWrite
  rw [hw, hr]
  simp only [← start]
  split
  · next h0 =>
    split
    · next he => rw [if_neg fun h => h.2 he]; rfl
    · next he => rw [if_pos ⟨h0, fun h => he h⟩]; rfl
  · next h0 => rw [if_neg fun h => h0 h.1]; rfl

/-! ## The writer's test (R132) -/

theorem writerTest_iff : (r.wst = .idle && r.recovering.isNone && !r.scanning && r.write.isNone) = true ↔
    r.wst = .idle ∧ r.recovering = none ∧ r.scanning = false ∧ r.write = none := by
  simp [and_assoc]

theorem writerTest_of_busy (h : ¬(r.wst = .idle ∧ r.recovering = none ∧ r.scanning = false ∧ r.write = none)) :
    writerTest r = r := if_neg (mt writerTest_iff.1 h)

theorem writerTest_of_free (h : r.wst = .idle ∧ r.recovering = none ∧ r.scanning = false ∧ r.write = none) :
    writerTest r =
      if r.slot.isSome then placeWrite false { r with write := some (.new .slot) }
      else if r.queue.isEmpty then r
      else placeWrite true { r with write := some (.new .queue) } := if_pos (writerTest_iff.2 h)

end

/-! ## The writer's events -/

section
variable {s : State} {dt : Nat}

/-- The store at the end of a timer of the writer's. -/
theorem elapse_rws_of_over (h : s.tps.phase ≠ .off) (ht : (s.elapse dt).rws.timer = some 0) :
    (s.elapse dt).rws = { s.rws with timer := some 0 } := by
  rw [elapse_rws_of_on h] at ht ⊢
  exact congrArg (fun t => { s.rws with timer := t }) ht

theorem elapse_inHand (dt : Nat) (s : State) : (s.elapse dt).rws.inHand = s.rws.inHand := by
  simp [Rws.inHand]

theorem eraseDue_of_over {r : Rws} {sec : Nat} (hw : r.wst = .erasing sec) (ht : r.timer = some 0) :
    r.eraseDue = some sec := by
  simp [Rws.eraseDue, hw, Timer.over, ht]

theorem eraseDue_of_early {r : Rws} (ht : r.timer ≠ some 0) : r.eraseDue = none := by
  unfold Rws.eraseDue
  split
  · exact if_neg (mt over_iff.1 ht)
  · rfl

theorem programDue_iff {r : Rws} : r.programDue = true ↔ r.wst = .programming ∧ r.timer = some 0 := by
  simp [Rws.programDue, over_iff]

theorem readDue_iff {r : Rws} : r.readDue = true ↔ r.wst = .verifying ∧ r.timer = some 0 := by
  simp [Rws.readDue, over_iff]

theorem voiding_of_write {r : Rws} {w : Write} (h : r.write = some w) : r.voiding = w.voiding := by
  rw [Rws.voiding, h]; rfl

theorem eraseOver_of_write {sec : Nat} (h : s.rws.recovering ≠ some .clearing) :
    eraseOver sec s = s.setRws (beginProgram (endErase sec s.rws)) := if_neg h

theorem eraseOver_of_recovery {sec : Nat} (h : s.rws.recovering = some .clearing) :
    eraseOver sec s = writerGoesOn (recoverStart (s.setRws (endErase sec s.rws))) := if_pos h

section
variable {w : Write} {rec : Record} (hw : s.rws.write = some w) (hr : s.rws.inHand = some rec)
include hw hr

theorem blockOver_of_more (h : w.done + 1 < rec.blocks) :
    blockOver s = s.setRws (beginProgram (blockDone s.rws)) :=
  if_neg (mt (blockDone_allProgrammed_iff hw hr).1 (Nat.not_le.2 h))

theorem blockOver_of_last (h : rec.blocks ≤ w.done + 1) :
    blockOver s =
      if w.src = .queue then freedPlace (s.setRws (beginVerify (toVerifySlot (blockDone s.rws))))
      else s.setRws (beginVerify (toVerifySlot (blockDone s.rws))) := by
  refine (if_pos ((blockDone_allProgrammed_iff hw hr).2 h)).trans ?_
  simp only [blockDone_write hw hr, beq_iff_eq]

end

/-! ## Freed places (R131, R165, R197) -/

theorem handOver_tps (kind : RKind) (job : Nat) (body : List Byte) (fresh : Bool) (item : Option Nat)
    (s : State) : (handOver kind job body fresh item s).1.tps = s.tps := by
  fun_cases handOver kind job body fresh item s <;> rfl

theorem tpsFreed_reports (s : State) : (tpsFreed s).reports = s.reports := by
  unfold tpsFreed
  split
  · rfl
  · simp only []
    split <;> exact handOver_reports ..

theorem buFreed_reports (s : State) : (buFreed s).reports = s.reports :=
  handOutbox_leaves State.reports handOver_reports (fun _ _ _ _ => rfl) _ s

/-- A freed place is told on inside the step: nothing is handed on (log 7). -/
theorem freedPlace_reports (s : State) : (freedPlace s).reports = s.reports :=
  (tpsFreed_reports _).trans ((buFreed_reports _).trans (reports_of_offBuilder (testHeads_offBuilder _ _)))

theorem buFreed_of_empty (h : s.bu.outbox = []) : buFreed s = s := by
  rw [buFreed, h]; rfl

section
variable {r : OutRec} {rest : List OutRec} {v : State} (h : s.bu.outbox = r :: rest)
include h

/-- The oldest record of the outbox is handed over first; where it is not taken all wait (R165). -/
theorem buFreed_of_kept (e : r.handOver s = (v, none)) : buFreed s = v := by
  rw [buFreed, h, List.length_cons, handOutbox, h]
  simp only [e]

theorem buFreed_of_taken {q : Nat} (e : r.handOver s = (v, some q)) :
    buFreed s = buFreed (v.setBu { (r.taken q s.bu) with outbox := rest }) := by
  have hb : (r.handOver s).1.bu = s.bu := by cases r <;> exact handOver_bu ..
  replace hb : v.bu = s.bu := by rwa [e] at hb
  rw [buFreed, h, List.length_cons, handOutbox, h]
  simp only [e, hb]
  rfl

end

theorem tpsFreed_of_none (h : s.tps.heldRecovery = none) : tpsFreed s = s := by
  rw [tpsFreed, h]

section
variable {r : Recovery} {v : State} (h : s.tps.heldRecovery = some r)
include h

theorem tpsFreed_of_kept (e : handOver .recovery r.job r.body false none s = (v, none)) :
    tpsFreed s = v := by
  rw [tpsFreed, h]
  simp only [e]

theorem tpsFreed_of_taken {q : Nat} (e : handOver .recovery r.job r.body false none s = (v, some q)) :
    tpsFreed s = v.setTps { s.tps with heldRecovery := none } := by
  have ht : v.tps = s.tps := by simpa only [e] using handOver_tps .recovery r.job r.body false none s
  rw [tpsFreed, h]
  simp only [e, ht]

end

/-- The record's number is stored with its ticket (R165). -/
theorem taken_bu (r : OutRec) (q : Nat) (b : Bu) (rest : List OutRec) :
    { (r.taken q b) with outbox := rest } =
      { b with
        outbox := rest
        tickets := match r with
          | .jobOpened _ _ => b.tickets
          | .ticket number _ _ => b.tickets.map (fun t =>
            { t with recSeq := if t.number = number then some q else t.recSeq }) } := by
  cases r with
  | jobOpened => rfl
  | ticket number =>
    refine congrArg (fun l : List Ticket => { b with outbox := rest, tickets := l }) ?_
    refine List.map_congr_left fun t _ => ?_
    split <;> rfl

end

/-! ## O56 -/

section
variable {s : State} {dt : Nat} (hs : s.awake)
include hs

/-- Before its time no event of the writer's changes anything but the timers (log 2). -/
theorem writerEvents_of_early (ht : (s.elapse dt).rws.timer ≠ some 0) :
    let idle : Out := .next (lcService (s.elapse dt))
    exec (.eraseComplete dt) s = idle ∧ exec (.blockProgramComplete dt) s = idle
      ∧ exec (.voidComplete dt) s = idle ∧ ∀ cells, exec (.verifyBlockRead dt cells) s = idle := by
  have program : (s.elapse dt).rws.programDue = false :=
    Bool.eq_false_iff.2 (mt (fun h => (programDue_iff.1 h).2) ht)
  have read : (s.elapse dt).rws.readDue = false :=
    Bool.eq_false_iff.2 (mt (fun h => (readDue_iff.1 h).2) ht)
  refine ⟨next_of_early hs ?_, next_of_early hs ?_, next_of_early hs ?_, fun cells => next_of_early hs ?_⟩
  · simp only [eraseDue_of_early ht]
  · exact if_neg (by simp [program])
  · split
    · exact if_neg (by simp [program])
    · rfl
  · exact if_neg (by simp [read])

variable (ht : (s.elapse dt).rws.timer = some 0)
include ht

theorem eraseComplete_of_due {sec : Nat} (hw : s.rws.wst = .erasing sec) :
    exec (.eraseComplete dt) s = .next (finish (eraseOver sec (s.elapse dt))) := by
  refine next_of_finish hs ?_
  have hd : (s.elapse dt).rws.eraseDue = some sec := eraseDue_of_over (by simp [hw]) ht
  simp only [hd]

theorem blockProgramComplete_of_due {w : Write} (hp : s.rws.wst = .programming)
    (hw : s.rws.write = some w) (hv : w.voiding = none) :
    exec (.blockProgramComplete dt) s = .next (finish (blockOver (s.elapse dt))) := by
  refine next_of_finish hs (if_pos ?_)
  have hd : (s.elapse dt).rws.programDue = true := programDue_iff.2 ⟨by simp [hp], ht⟩
  have hn : (s.elapse dt).rws.voiding = none := (voiding_of_write (by simp [hw])).trans hv
  simp [hd, hn]

end

/-- Settles O56: the writer's events at the ends of their times, then where a write is placed, the
writer's test, hand-overs and freed places. -/
theorem theWriterErasesAndPrograms : Obligations.TheWriterErasesAndPrograms := by
  refine ⟨fun dt s hs => ⟨writerEvents_of_early hs, fun sec hw ht hc => ?_,
    fun w rec hp ht hw hv hr => ?_⟩, fun first r w rec hw hrec => ?_, fun r => ?_,
    fun kind job body fresh item u => ?_, fun u => ⟨rfl, buFreed_of_empty, fun r rest ho => ?_,
    tpsFreed_of_none, fun r hr => ?_⟩⟩
  · refine ⟨?_, fun a => blockAt_eraseSector_self _, fun a => blockAt_eraseSector_of_ne _⟩
    rw [eraseComplete_of_due hs ht hw, eraseOver_of_write (by simpa using hc), elapse_rws_of_over hs.1 ht]
    exact congrArg _ (finish_of_nil ((State.elapse_reports dt s).trans hs.2))
  · intro c addr r
    have hrep : (s.elapse dt).reports = [] := (State.elapse_reports dt s).trans hs.2
    have due := blockProgramComplete_of_due hs ht hp hw hv
    have hw' : (s.elapse dt).rws.write = some w := by simp [hw]
    have hr' : (s.elapse dt).rws.inHand = some rec := (elapse_inHand dt s).trans hr
    have done := blockDone_of_hand hw' hr'
    refine ⟨fun hn => due.trans ?_, fun hn => ?_⟩
    · rw [blockOver_of_more hw' hr' hn, done, elapse_rws_of_over hs.1 ht]
      exact congrArg _ (finish_of_nil (s := State.setRws _ _) hrep)
    · have last := blockOver_of_last hw' hr' hn
      refine ⟨fun hsrc => due.trans ?_, fun rest hsrc hq => due.trans ?_⟩
      · rw [last, if_neg (by simp [hsrc]), toVerifySlot_of_slot (blockDone_write hw' hr') hsrc, done,
          elapse_rws_of_over hs.1 ht]
        simp only [beginVerify, Option.map_some, hsrc, hv]
        exact congrArg _ (finish_of_nil (s := State.setRws _ _) hrep)
      · have hq' : (blockDone (s.elapse dt).rws).queue = rec :: rest := by
          rw [done]
          exact (State.elapse_rws_queue dt s).trans hq
        rw [last, if_pos hsrc, toVerifySlot_of_queue (blockDone_write hw' hr') hsrc hq', done,
          elapse_rws_of_over hs.1 ht]
        simp only [beginVerify, Option.map_some, hv]
        exact congrArg _ (finish_of_nil (s := freedPlace _) ((freedPlace_reports _).trans hrep))
  · intro h1 h2 t left
    have place := placeWrite_of_hand hw ((inHand_iff hw).2 hrec) first
    refine ⟨fun h => place.trans (if_neg ?_), fun h0 he => place.trans ((if_pos ⟨h0, he⟩).trans ?_)⟩
    · rintro ⟨h0, he⟩
      exact h.elim (· h0) he
    · simp only [beginErase, List.contains_iff_mem]
      rfl
  · intro free taken
    refine ⟨writerTest_of_busy, fun hf hn => ?_, fun hf hn hq => ?_, fun hf hn hq => ?_⟩
    · exact (writerTest_of_free hf).trans (if_pos (Option.isSome_iff_ne_none.2 hn))
    · rw [writerTest_of_free hf, hn, hq]; rfl
    · refine (writerTest_of_free hf).trans ((if_neg (by simp [hn])).trans (if_neg ?_))
      simpa using hq
  · intro given n
    refine ⟨fun ha => if_pos (by simp [ha]), fun ha hn hx => ?_, fun ha hn hx => ?_, fun hn hq => ?_,
      fun ha hn hq => handOver_of_place (hasPlace_iff.2 ⟨ha, hq, hn⟩)⟩
    · exact (if_neg (by simp [ha])).trans ((if_pos hn).trans (if_pos hx))
    · exact (if_neg (by simp [ha])).trans ((if_pos hn).trans (if_neg (by simp [hx])))
    · exact handOver_of_no_place (Bool.eq_false_iff.2 fun h =>
        Nat.not_lt.2 hq (hasPlace_iff.1 h).2.1) (.inl hn)
  · intro given tickets
    have hg : r.handOver u = given := by cases r <;> rfl
    refine ⟨fun v hv => buFreed_of_kept ho (hg.trans hv), fun v q hv => ?_⟩
    rw [buFreed_of_taken ho (hg.trans hv)]
    simp only [taken_bu]
    rfl
  · exact ⟨fun v => tpsFreed_of_kept hr, fun v q => tpsFreed_of_taken hr⟩

end Sys2Proof.Machine
end

section
/-! PROOFS. The record store: the verify and what follows it, and the warm recovery. -/

namespace Sys2Proof.Machine

/-! ## The read-back (R135, R136) -/

section
variable {r : Rws} {w : Write} {rec : Record} {cells : List CellRead}

/-- One block of the record in the verify slot, read back (R135). -/
theorem verifyRead_of_slot (hw : r.write = some w) (hs : r.slot = some rec) :
    verifyRead cells r =
      let store := ageBlock r.store (w.start + w.readBlocks) cells
      let rows := readRows (blockAt store (w.start + w.readBlocks))
      let weak := w.weak + (rows.filter RowRead.isWeak).length
      let data := w.readData ++ rows.flatMap RowRead.data
      if ∃ x ∈ rows, x.isFailed = true then ({ r with store := store }, .fail)
      else if w.readBlocks + 1 < rec.blocks then
        ({ r with
            store := store, timer := some 1
            write := some { w with readBlocks := w.readBlocks + 1, weak := weak, readData := data } },
          .more)
      else if sumMatches data = true ∧ data.head? = some 0x5A#8 then ({ r with store := store }, .pass weak)
      else ({ r with store := store }, .fail) := by
  rw [verifyRead, hw, hs]
  simp only [List.any_eq_true, Bool.and_eq_true, beq_iff_eq]
  rfl

theorem verifyPassed_of_slot (hw : r.write = some w) (hs : r.slot = some rec) :
    verifyPassed r =
      let readable := r.readable ++ [⟨w.start, rec.kind, rec.seq, rec.job, rec.blocks, rec.ts⟩]
      endWrite { r with readable := readable, earliest := (readable.map Readable.seq).min? } := by
  rw [verifyPassed, hw, hs]
  rfl

theorem beginVoid_of_write (hw : r.write = some w) (why : VoidFor) : beginVoid why r =
    { r with
      wst := .programming, timer := some 2, write := some { w with voiding := some why, mark := none } } := by
  rw [beginVoid, hw]
  rfl

theorem beginVerify_of_write (hw : r.write = some w) : beginVerify r =
    { r with
      wst := .verifying, timer := some 1
      write := some { w with readBlocks := 0, weak := 0, readData := [], voiding := none, mark := none } } := by
  rw [beginVerify, hw]
  rfl

theorem voidBlock_of_write (hw : r.write = some w) :
    voidBlock r = { r with store := programBlock r.store w.start voidPattern } := by
  rw [voidBlock, hw]

end

section
variable {s : State} {r : Rws} {cells : List CellRead}

theorem verifyOver_of_fail {w : Write} (e : verifyRead cells s.rws = (r, .fail))
    (hw : r.write = some w) : verifyOver cells s = s.setRws
      { r with
        wst := .programming, timer := some 2
        write := some { w with voiding := some .failure, mark := none } } := by
  rw [verifyOver, e, ← beginVoid_of_write hw]
  rfl

theorem verifyOver_of_more (e : verifyRead cells s.rws = (r, .more)) :
    verifyOver cells s = s.setRws r := by
  rw [verifyOver, e]

theorem raiseWeak_of_slot {rec : Record} (h : s.rws.slot = some rec) (weak : Nat) :
    raiseWeak weak s = if weak = 0 then s else s.raise (.storeWeak rec.kind rec.seq weak) := by
  rw [raiseWeak, h]

/-- A verify that passes makes the record readable, behind STORE WEAK where rows were weak (R136). -/
theorem verifyOver_of_pass {w : Write} {rec : Record} {weak : Nat}
    (e : verifyRead cells s.rws = (r, .pass weak)) (hw : r.write = some w) (hs : r.slot = some rec) :
    verifyOver cells s =
      let readable := r.readable ++ [⟨w.start, rec.kind, rec.seq, rec.job, rec.blocks, rec.ts⟩]
      let t := if weak = 0 then s else s.raise (.storeWeak rec.kind rec.seq weak)
      writerGoesOn (t.setRws
        (endWrite { r with readable := readable, earliest := (readable.map Readable.seq).min? })) := by
  rw [verifyOver, e]
  simp only [raiseWeak_of_slot (s := s.setRws r) hs]
  refine congrArg writerGoesOn ?_
  split <;> exact congrArg (State.setRws _) (verifyPassed_of_slot hw hs)

/-! ## After a failed verify (R137, R138) -/

/-- A record is rewritten at the head with one more attempt counted (R137). -/
def Rws.retried (w : Write) (r : Rws) : Rws :=
  { r with write := some { w with attempts := w.attempts + 1, src := .slot } }

/-- A LOST record takes a record's place in the verify slot (R138). -/
def Rws.givenUp (rec : Record) (now : Nat) (r : Rws) : Rws :=
  { r with slot := some (lostRecord rec now), write := some (.new .slot) }

section
variable {w : Write} {rec : Record} (hw : s.rws.write = some w)
include hw

theorem afterFailure_of_retry (hr : s.rws.inHand = some rec) (h : w.attempts < 2) :
    afterFailure s = s.setRws (placeWrite false (s.rws.retried w)) := by
  rw [afterFailure, hw, hr]
  exact if_pos (Nat.succ_lt_succ h)

theorem afterFailure_of_third (hr : s.rws.inHand = some rec) (h : 2 ≤ w.attempts) (hk : rec.kind ≠ .lost) :
    afterFailure s = (s.setRws (placeWrite false (s.rws.givenUp rec s.tps.clock))).raise
      (.storeFault .lostWritten (some rec.kind) (some rec.seq)) := by
  rw [afterFailure, hw, hr]
  exact (if_neg (Nat.not_lt.2 (Nat.succ_le_succ h))).trans (if_neg hk)

theorem afterFailure_of_lost (hr : s.rws.inHand = some rec) (h : 2 ≤ w.attempts) (hk : rec.kind = .lost) :
    afterFailure s = (s.setRws (endWrite s.rws)).raise (.storeFault .abandoned none (some rec.seq)) := by
  rw [afterFailure, hw, hr]
  exact (if_neg (Nat.not_lt.2 (Nat.succ_le_succ h))).trans (if_pos hk)

end

/-! ## The warm recovery (R142) -/

theorem writerGoesOn_of_not (h : ¬s.rws.recovered = true) :
    writerGoesOn s = s.setRws (writerTest s.rws) := if_neg h

theorem writerGoesOn_of_recovered (h : s.rws.recovered = true) : writerGoesOn s = storeReady s := if_pos h

/-- The writer as the steps after the first of a warm recovery begin. -/
def Rws.finishing (r : Rws) : Rws :=
  { r with recovering := some .finishing, accepting := false, scanning := false, wst := .idle, timer := none }

theorem finishing_inHand (r : Rws) : r.finishing.inHand = r.inHand := rfl

theorem toReErase_of_first {k : Nat} {l : List Sector} (h : l[k]? = some .reErase)
    (hf : ∀ j, j < k → l[j]? ≠ some .reErase) : l.findIdx? (· == .reErase) = some k := by
  obtain ⟨hk, e⟩ := List.getElem?_eq_some_iff.1 h
  refine List.findIdx?_eq_some_iff_getElem.2 ⟨hk, by simp [e], fun j hj => ?_⟩
  have := hf j hj
  rw [List.getElem?_eq_getElem (hj.trans hk)] at this
  simpa using this

theorem recoverStart_of_reErase {k : Nat} (h : s.rws.toReErase = some k) :
    recoverStart s = s.setRws
      { beginErase k { s.rws with accepting := false, scanning := false } with
        recovering := some .clearing } := by
  unfold recoverStart
  simp only [Rws.toReErase] at h ⊢
  simp only [h]
  rfl

theorem recoverStart_of_erased (h : ∀ x ∈ s.rws.sectors, x ≠ .reErase) :
    recoverStart s = recoverWrite (s.setRws
      { s.rws with recovering := some .clearing, accepting := false, scanning := false }) := by
  have hn : s.rws.sectors.findIdx? (· == .reErase) = none :=
    List.findIdx?_eq_none_iff.2 fun x hx => by simpa using h x hx
  unfold recoverStart
  simp only [Rws.toReErase, hn]

section
variable (h : ∀ x ∈ s.rws.sectors, x ≠ .reErase)
include h

theorem recoverStart_of_no_write (hw : s.rws.write = none) : recoverStart s = s.setRws s.rws.finishing := by
  rw [recoverStart_of_erased h]
  unfold recoverWrite
  dsimp only [State.setRws_rws]
  split
  · rfl
  · next w e => cases hw.symm.trans e

variable {w : Write} (hw : s.rws.write = some w)
include hw

theorem recoverStart_of_write : recoverStart s =
    match w.mark with
    | some .unverified =>
      if s.rws.finishing.allProgrammed then s.setRws (beginVerify s.rws.finishing)
      else if w.done = 0 then s.setRws (placeWrite false s.rws.finishing)
      else s.setRws (beginVoid .cutShort s.rws.finishing)
    | some (.rewrite .failure) => afterFailure (s.setRws s.rws.finishing)
    | some (.rewrite .cutShort) => s.setRws (placeWrite false s.rws.finishing)
    | none => s.setRws (beginProgram s.rws.finishing) := by
  rw [recoverStart_of_erased h]
  unfold recoverWrite
  dsimp only [State.setRws_rws]
  split
  · next e => cases hw.symm.trans e
  · next v e =>
    cases hw.symm.trans e
    rfl

end

end

/-! ## The writer's events at the ends of their times -/

section
variable {s : State} {dt : Nat} (hs : s.awake) (ht : (s.elapse dt).rws.timer = some 0)
include hs ht

theorem verifyBlockRead_of_due (hv : s.rws.wst = .verifying) (cells : List CellRead) :
    exec (.verifyBlockRead dt cells) s = .next (finish (verifyOver cells (s.elapse dt))) :=
  next_of_finish hs (if_pos (readDue_iff.2 ⟨by simp [hv], ht⟩))

theorem voidComplete_of_due {w : Write} {why : VoidFor} (hp : s.rws.wst = .programming)
    (hw : s.rws.write = some w) (hv : w.voiding = some why) :
    exec (.voidComplete dt) s = .next (finish (voidOver why (s.elapse dt))) := by
  refine next_of_finish hs ?_
  have hn : (s.elapse dt).rws.voiding = some why := (voiding_of_write (by simp [hw])).trans hv
  have hd : (s.elapse dt).rws.programDue = true := programDue_iff.2 ⟨by simp [hp], ht⟩
  simp only [hn, hd, if_true]

end

/-- Settles O57: the read-back and the voids by what they find, and the warm recovery by the mark that
the warning left on the write in hand. -/
theorem theWriterVerifiesAndRewrites : Obligations.TheWriterVerifiesAndRewrites := by
  refine ⟨fun dt s w rec hs ht hw => ⟨fun cells hv hslot => ?_, fun hp hsrc hslot hv => ?_,
    fun hp hv => ?_⟩, fun u => ?_, fun u => ?_, fun dt sec s hs hw ht hc => ?_⟩
  · intro c addr store rows weak data good failed
    have hrep : (s.elapse dt).reports = [] := (State.elapse_reports dt s).trans hs.2
    have due := verifyBlockRead_of_due hs ht hv cells
    have hw' : (s.elapse dt).rws.write = some w := by simp [hw]
    have hs' : (s.elapse dt).rws.slot = some rec := by simp [hslot]
    have read := verifyRead_of_slot (cells := cells) hw' hs'
    rw [State.elapse_rws_store] at read
    have fails (e : verifyRead cells (s.elapse dt).rws =
        ({ (s.elapse dt).rws with store := store }, .fail)) : failed := by
      refine due.trans ?_
      rw [verifyOver_of_fail e hw', elapse_rws_of_over hs.1 ht]
      exact congrArg _ (finish_of_nil (s := State.setRws _ _) hrep)
    refine ⟨fun hf => fails (read.trans (if_pos hf)), fun hp => ?_⟩
    have hp' : ¬∃ x ∈ rows, x.isFailed = true := by simpa using hp
    replace read := read.trans (if_neg hp')
    refine ⟨fun hn => ?_, fun hn hg => fails (read.trans ((if_neg (Nat.not_lt.2 hn)).trans (if_neg hg))),
      fun hn hg => ?_⟩
    · refine due.trans ?_
      rw [verifyOver_of_more (read.trans (if_pos hn)), elapse_rws_of_over hs.1 ht]
      exact congrArg _ (finish_of_nil (s := State.setRws _ _) hrep)
    · intro readable t
      refine due.trans ?_
      rw [verifyOver_of_pass (read.trans ((if_neg (Nat.not_lt.2 hn)).trans (if_pos hg))) hw' hs',
        elapse_rws_of_over hs.1 ht]
      rfl
  · intro c r
    have due := voidComplete_of_due hs ht hp hw hv
    have hw' : (s.elapse dt).rws.write = some w := by simp [hw]
    have hr : r.inHand = some rec := (inHand_iff (r := r) hw').2 (.inr ⟨hsrc, by simp [r, hslot]⟩)
    have voided : (s.elapse dt).setRws (voidBlock (s.elapse dt).rws) = (s.elapse dt).setRws r := by
      rw [voidBlock_of_write hw', State.elapse_rws_store]
    simp only [voidOver, voided] at due
    refine ⟨fun ha => due.trans ?_, fun ha hk => due.trans ?_, fun ha hk => due.trans ?_⟩
    · rw [afterFailure_of_retry (s := (s.elapse dt).setRws r) hw' hr ha, Rws.retried, ← hsrc]
      rfl
    · rw [afterFailure_of_third (s := (s.elapse dt).setRws r) hw' hr ha hk, State.setRws_tps,
        State.elapse_tps]
      rfl
    · rw [afterFailure_of_lost (s := (s.elapse dt).setRws r) hw' hr ha hk]
      rfl
  · have hw' : (s.elapse dt).rws.write = some w := by simp [hw]
    refine (voidComplete_of_due hs ht hp hw hv).trans ?_
    simp only [voidOver, voidBlock_of_write hw', State.elapse_rws_store]
    rfl
  · exact ⟨fun h => writerGoesOn_of_not (mt recovered_iff.1 h),
      fun h => writerGoesOn_of_recovered (recovered_iff.2 h)⟩
  · refine ⟨fun k hk hf => ?_, fun he => ⟨recoverStart_of_no_write he, fun w rec hw hrec => ?_⟩⟩
    · intro left
      rw [recoverStart_of_reErase (toReErase_of_first hk hf)]
      have marked : u.rws.sectors.set k .reErase = u.rws.sectors := by
        obtain ⟨_, e⟩ := List.getElem?_eq_some_iff.1 hk
        rw [← e, List.set_getElem_self]
      simp only [beginErase, List.contains_iff_mem, marked]
      rfl
    · have hr : u.rws.finishing.inHand = some rec := (inHand_iff hw).2 hrec
      have start := recoverStart_of_write he hw
      refine ⟨fun hm => ?_, fun hm ha => ?_, fun hm ha hk => ?_, fun hm ha hk => ?_, fun hm => ?_,
        fun hm => ?_⟩
      all_goals rw [hm] at start
      · have programmed := allProgrammed_iff (r := u.rws.finishing) hw hr
        refine ⟨fun hn => ?_, fun hn hd => ?_, fun hn hd => ?_⟩
        · rw [start, if_pos (programmed.2 hn), beginVerify_of_write (r := u.rws.finishing) hw]
          rfl
        · exact start.trans ((if_neg (mt programmed.1 (Nat.not_le.2 hn))).trans (if_pos hd))
        · rw [start, if_neg (mt programmed.1 (Nat.not_le.2 hn)), if_neg hd,
            beginVoid_of_write (r := u.rws.finishing) hw]
          rfl
      · exact start.trans (afterFailure_of_retry (s := u.setRws u.rws.finishing) hw hr ha)
      · exact start.trans (afterFailure_of_third (s := u.setRws u.rws.finishing) hw hr ha hk)
      · exact start.trans (afterFailure_of_lost (s := u.setRws u.rws.finishing) hw hr ha hk)
      · exact start
      · exact start
  · rw [eraseComplete_of_due hs ht hw, eraseOver_of_recovery (by simpa using hc), endErase]
    simp only [State.elapse_rws_store, State.elapse_rws_sectors, State.elapse_rws_halfErased]

end Sys2Proof.Machine
end

section
/-! PROOFS. The record store: the power-fail warning, and commands while the part is held in reset. -/

namespace Sys2Proof.Machine

/-! ## The writer at the warning (R141) -/

/-- The writer, stopped: no hand-over is taken, and no recovery runs. -/
def Rws.stopped (r : Rws) : Rws :=
  { r with wst := .idle, timer := none, accepting := false, recovering := none }

/-- The write in hand as the block program in progress ends at the warning. -/
def Write.cut (w : Write) : Write := { w with done := w.done + 1, mark := some .unverified }

/-- The block program in progress ends, its write marked as not verified. -/
def Rws.blockMarked (r : Rws) (w : Write) (rec : Record) : Rws :=
  { r with
    store := programBlock r.store (w.start + w.done) (rec.pattern w.done)
    head := (w.start + w.done + 1) % 8192
    sectors := r.indexed w rec
    write := some w.cut }

section
variable {r : Rws}

/-- With no write on its way the writer only stops; an erase is taken up at the warm recovery (R142). -/
theorem rwsPowerFail_of_still (h : r.wst = .idle ∨ ∃ sec, r.wst = .erasing sec) :
    rwsPowerFail r = r.stopped := by
  rcases h with h | ⟨sec, h⟩ <;> simp only [rwsPowerFail, h] <;> rfl

/-- The record's step to the verify slot leaves the store, the head and the sector index (R134). -/
theorem toVerifySlot_leaves (r : Rws) : (toVerifySlot r).store = r.store
    ∧ (toVerifySlot r).head = r.head ∧ (toVerifySlot r).sectors = r.sectors := by
  fun_cases toVerifySlot r <;> exact ⟨rfl, rfl, rfl⟩

section
variable {w : Write} (hw : r.write = some w)
include hw

theorem rwsPowerFail_of_verifying (h : r.wst = .verifying) : rwsPowerFail r =
    { r with
      write := some { w with mark := some .unverified, readBlocks := 0, weak := 0, readData := [] } }.stopped := by
  simp only [rwsPowerFail, h, hw]
  rfl

theorem rwsPowerFail_of_voiding {why : VoidFor} (h : r.wst = .programming) (hv : w.voiding = some why) :
    rwsPowerFail r =
      { r with
        store := programBlock r.store w.start voidPattern
        write := some { w with voiding := none, mark := some (.rewrite why) } }.stopped := by
  simp only [rwsPowerFail, h, hw, hv, voidBlock_of_write hw]
  rfl

variable {rec : Record} (hr : r.inHand = some rec)
include hr

theorem rwsPowerFail_of_programming (h : r.wst = .programming) (hv : w.voiding = none) :
    rwsPowerFail r =
      (if rec.blocks ≤ w.done + 1 then toVerifySlot (r.blockMarked w rec)
        else r.blockMarked w rec).stopped := by
  have marked : { blockDone r with
      write := (blockDone r).write.map fun x : Write => { x with mark := some .unverified } } =
      r.blockMarked w rec := by
    rw [blockDone_of_hand hw hr]
    rfl
  have hand : (r.blockMarked w rec).inHand = some rec :=
    (inHand_iff (w := w.cut) rfl).2 ((inHand_iff hw).1 hr)
  have programmed : (r.blockMarked w rec).allProgrammed = true ↔ rec.blocks ≤ w.done + 1 :=
    allProgrammed_iff rfl hand
  simp only [rwsPowerFail, h, hw, hv, marked, programmed]
  rfl

end

end

/-! ## The other blocks at the warning -/

section
variable {s : State} {dt : Nat}

/-- The category in force, or STANDBY before the first tick since the restart (R157). -/
theorem lossCategory_eq (s : State) :
    lossCategory s = if s.cm.win = none then .standby else s.bu.category :=
  if_congr Option.isNone_iff_eq_none rfl rfl

/-- The supervisor at the warning: the loss second is kept where a recovery is still pending (R192). -/
theorem warned_eq (t : Tps) :
    { (if t.recoveryPending then t else { t with lossSec := some t.clock, recoveryPending := true }) with
      phase := .off } =
    { t with
      phase := .off, recoveryPending := true
      lossSec := if t.recoveryPending then t.lossSec else some t.clock } := by
  obtain ⟨_, _, _, _, _, pending, _, _, _, _⟩ := t
  cases pending <;> rfl

theorem powerFails_eq (s : State) : powerFails s =
    { s with
      sfe := { s.sfe with g1 := ⟨0, 0, 0, s.sfe.g1.flag⟩ }
      aha := ⟨none, [], [], none⟩
      hs := s.hs.interrupted
      rws := rwsPowerFail s.rws
      bu := { s.bu with lossCat := some (if s.cm.win = none then .standby else s.bu.category) }
      lc := s.lc.stopped
      tps := { s.tps with
        phase := .off, recoveryPending := true
        lossSec := if s.tps.recoveryPending then s.tps.lossSec else some s.tps.clock }
      reports := [] } := by
  simp only [powerFails, disarmGroup_eq, lossCategory_eq, warned_eq]
  rfl

theorem powerFailWarning_of_on (h : s.tps.phase ≠ .off) :
    exec (.powerFailWarning dt) s = .next (powerFails (s.elapse dt)) :=
  congrArg _ (whenOn_of_on h)

/-! ## Held in reset (R192) -/

theorem whenOn_of_off (h : s.tps.phase = .off) (f : State → State) : whenOn dt s f = s := if_pos h

/-- While the part is held in reset a command acts on nothing, but for the wiring, the clock and the return
of power (R192). -/
theorem exec_of_off (h : s.tps.phase = .off) (c : Instr) (hr : ∀ dt sw on, c ≠ .switchRawChange dt sw on)
    (hs : ∀ dt, c ≠ .secondTick dt) (hp : ∀ dt secs b, c ≠ .powerUp dt secs b) : exec c s = .next s := by
  have still {dt : Nat} {f : State → State} : (.next (whenOn dt s f) : Out) = .next s :=
    congrArg _ (whenOn_of_off h f)
  cases e : c.request with
  | some x => exact (exec_of_request e).trans still
  | none =>
    cases c with
    | switchRawChange dt sw on => exact absurd rfl (hr dt sw on)
    | secondTick dt => exact absurd rfl (hs dt)
    | powerUp dt secs b => exact absurd rfl (hp dt secs b)
    | unknownKindRequest | huntByte | frameReceived | interByteTimeout | silenceTimerExpiry
    | transmitComplete | switchChangeTaken | acquisitionEnd | strokePulse | returnMeterPulse
    | rotationPulse | headEncoderStep | rotatingIndicationExpiry | analogueSample | pumpGapTimerExpiry
    | windowClose | flowCheckTimerExpiry | captureTimerExpiry | motionTimeout | stallTimerExpiry
    | graceExpiry | eraseComplete | blockProgramComplete | voidComplete | verifyBlockRead
    | coldStartScanEnd | powerFailWarning | frameDropped => exact still
    | _ => cases e

end

/-- Settles O59: the warning block by block, then the write in hand by the writer's state, and no command
acts on a part held in reset. -/
theorem theWarningHoldsEverythingAndResetActsOnNothing :
    Obligations.TheWarningHoldsEverythingAndResetActsOnNothing := by
  refine ⟨fun dt s hs => ?_, fun c s h => exec_of_off h c⟩
  intro h r still
  have hr : r = rwsPowerFail (s.rws.elapse dt) := congrArg rwsPowerFail (elapse_rws_of_on hs)
  refine ⟨?_, fun hw => hr.trans (rwsPowerFail_of_still hw), fun w hw =>
    ⟨fun hv => hr.trans (rwsPowerFail_of_verifying hw hv), fun why hp hv =>
      hr.trans (rwsPowerFail_of_voiding (r := s.rws.elapse dt) hw hp hv), fun rec hp hv hrec => ?_⟩⟩
  · rw [powerFailWarning_of_on hs, powerFails_eq, State.elapse_sfe_g1]
    simp only [r, h, elapse_of_on hs]
    rfl
  · have ended := hr.trans (rwsPowerFail_of_programming (r := s.rws.elapse dt) hw hrec hp hv)
    obtain ⟨hstore, hhead, hsectors⟩ := toVerifySlot_leaves ((s.rws.elapse dt).blockMarked w rec)
    by_cases hn : rec.blocks ≤ w.done + 1
    · rw [if_pos hn] at ended
      rw [ended]
      refine ⟨hstore, hhead, rfl, rfl, rfl, rfl, hsectors, fun _ hsrc => ?_,
        fun hm => absurd hn (Nat.not_le.2 hm), fun rest _ hsrc hq => ?_⟩
      · rw [toVerifySlot_of_slot (w := w.cut) rfl hsrc]
        exact ⟨rfl, rfl, rfl⟩
      · rw [toVerifySlot_of_queue (r := (s.rws.elapse dt).blockMarked w rec) (w := w.cut) rfl hsrc hq]
        exact ⟨rfl, rfl, rfl⟩
    · rw [if_neg hn] at ended
      rw [ended]
      exact ⟨rfl, rfl, rfl, rfl, rfl, rfl, rfl, fun hm => absurd hm hn, fun _ => ⟨rfl, rfl, rfl⟩,
        fun _ hm => absurd hm hn⟩

end Sys2Proof.Machine
end

section
/-! PROOFS. The record store: what a row, a block and a run of blocks read as, and the candidates of the
cold start's scan (R125, R143). -/

namespace Sys2Proof.Machine

/-! ## The data bytes of a block (R125) -/

/-- The data bytes of a block's eight rows, as they read. -/
def Block.data (b : Block) : List Byte := (readRows b).flatMap RowRead.data

/-- A block of 64 bytes at each level (R125). -/
def Block.whole (b : Block) : Prop := b.normal.length = 64 ∧ b.margin.length = 64

theorem rowOf_length {bytes : List Byte} {i : Nat} (h : bytes.length = 64) (hi : i < 8) :
    (rowOf bytes i).length = 8 := by
  simp [rowOf, h]
  omega

section
variable {b : Block} (h : b.whole)
include h

theorem readRow_data_length {i : Nat} (hi : i < 8) : (readRow b i).data.length = 7 := by
  have hn := rowOf_length h.1 hi
  have hm := rowOf_length h.2 hi
  unfold readRow
  simp only []
  split
  · simp [RowRead.data, hn]
  · split <;> simp [RowRead.data, hn, hm]

theorem data_length : b.data.length = 56 := by
  have := fun i (hi : i < 8) => readRow_data_length h hi
  simp [Block.data, readRows, this]

/-- The first rows' bytes are the first of the block's. -/
theorem data_getD {l l' : List Nat} (e : [0, 1, 2, 3, 4, 5, 6, 7] = l ++ l') {i : Nat}
    (hi : i < 7 * l.length) : (l.flatMap fun k => (readRow b k).data).getD i 0 = b.data.getD i 0 := by
  have rows : ∀ k ∈ l, (readRow b k).data.length = 7 := fun k hk =>
    readRow_data_length h (by
      have : k ∈ [0, 1, 2, 3, 4, 5, 6, 7] := e ▸ List.mem_append_left l' hk
      simp at this; omega)
  have len : (l.flatMap fun k => (readRow b k).data).length = 7 * l.length := by
    rw [List.length_flatMap, List.map_congr_left rows]; simp [Nat.mul_comm]
  have split : b.data = (l.flatMap fun k => (readRow b k).data)
      ++ l'.flatMap fun k => (readRow b k).data := by
    rw [Block.data, readRows, e, List.flatMap_map, List.flatMap_append]
  rw [split, List.getD_append _ _ _ _ (by omega)]

end

/-! ## Reading a run of blocks (R143) -/

/-- No row of the block fails at both levels. -/
def Block.reads (b : Block) : Prop := ∀ row ∈ readRows b, row.isFailed = false

theorem readBlock_eq_some {b : Block} {d : List Byte} :
    readBlock b = some d ↔ b.reads ∧ b.data = d := by
  have any : (readRows b).any RowRead.isFailed = true ↔ ¬b.reads := by
    simp [Block.reads]
  unfold readBlock
  simp only []
  split
  · next h => simp [any.1 h]
  · next h => simp [not_not.1 (mt any.2 h), Block.data]

/-- A run of blocks reads where every row of every block does, and gives their bytes in order. -/
theorem readBlocks_eq_some {store : List Block} {n addr : Nat} {d : List Byte} :
    readBlocks store addr n = some d ↔
      (∀ k ∈ List.range n, (blockAt store (addr + k)).reads)
        ∧ ((List.range n).flatMap fun k => (blockAt store (addr + k)).data) = d := by
  induction n generalizing addr d with
  | zero => simp [readBlocks]
  | succ n ih =>
    have shift : (fun k => blockAt store (addr + (k + 1))) = fun k => blockAt store (addr + 1 + k) := by
      funext k; congr 1; omega
    rw [readBlocks, List.range_succ_eq_map, List.forall_mem_cons, List.forall_mem_map, List.flatMap_cons,
      List.flatMap_map]
    have reads (k : Nat) := congrArg Block.reads (congrFun shift k)
    have data (k : Nat) := congrArg Block.data (congrFun shift k)
    simp only [Nat.succ_eq_add_one, reads, data, Nat.add_zero]
    split
    · next x y hx hy =>
      obtain ⟨rx, rfl⟩ := readBlock_eq_some.1 hx
      obtain ⟨ry, rfl⟩ := ih.1 hy
      simp only [Option.some.injEq]
      exact ⟨fun h => ⟨⟨rx, ry⟩, h⟩, fun h => h.2⟩
    · next hn =>
      refine ⟨fun h => (Option.some_ne_none _ h.symm).elim, fun ⟨⟨rx, ry⟩, _⟩ => ?_⟩
      exact (hn _ _ (readBlock_eq_some.2 ⟨rx, rfl⟩) (ih.2 ⟨ry, rfl⟩)).elim

/-! ## Candidates (R143) -/

section
variable {store rest : List Block} {half : List Nat} {b : Block} {x : Readable} {skip : Nat}

/-- What a block must show to begin an accepted record, and the record that it begins. -/
def Block.begins (store : List Block) (b : Block) (x : Readable) : Prop :=
  let n := (b.data.getD 10 0).toNat
  (readRow b 0).isFailed = false ∧ b.data.getD 0 0 = 0x5A#8
    ∧ RKind.ofCode (b.data.getD 1 0).toNat = some x.kind ∧ 1 ≤ n ∧ n ≤ 8 ∧ b.addr % 256 + n ≤ 256
    ∧ (∀ k ∈ List.range n, (blockAt store (b.addr + k)).reads)
    ∧ sumMatches ((List.range n).flatMap fun k => (blockAt store (b.addr + k)).data) = true
    ∧ x = ⟨b.addr, x.kind, fromBe ((b.data.drop 2).take 4), fromBe ((b.data.drop 6).take 4), n,
      fromBe ((b.data.drop 11).take 4)⟩

/-- A field of the header stands in the first block of a run. -/
theorem header_of_run {n : Nat} (hb : blockAt store b.addr = b) (h : b.whole) (hn : 1 ≤ n) {i : Nat}
    (hi : i ≤ 52) :
    ((((List.range n).flatMap fun k => (blockAt store (b.addr + k)).data).drop i).take 4) =
      (b.data.drop i).take 4 := by
  obtain ⟨m, rfl⟩ := Nat.exists_eq_add_of_le' hn
  have hl := data_length h
  simp only [List.range_succ_eq_map, List.flatMap_cons, Nat.add_zero, hb]
  rw [List.drop_append_of_le_length (by omega), List.take_append_of_le_length (by simp; omega)]

theorem scanAccept_iff (hb : blockAt store b.addr = b) (h : b.whole) :
    scanAccept store b = some x ↔ b.begins store x := by
  have head (i : Nat) (hi : i < 21) :
      ([0, 1, 2].flatMap fun k => (readRow b k).data).getD i 0 = b.data.getD i 0 :=
    data_getD h (l := [0, 1, 2]) (l' := [3, 4, 5, 6, 7]) rfl hi
  have mod : ∀ n, (decide (b.addr % Config.sectorBlocks + n ≤ Config.sectorBlocks)) =
    decide (b.addr % 256 + n ≤ 256) := fun _ => rfl
  unfold scanAccept Block.begins
  simp only [head 0 (by omega), head 1 (by omega), head 10 (by omega), validMark, mod]
  generalize hn : (b.data.getD 10 0).toNat = n
  split
  · next hk => exact ⟨fun h => by simp at h, fun ⟨_, _, hx, _⟩ => by rw [hk] at hx; simp at hx⟩
  · next kind hk =>
    split
    · next guard =>
      simp only [Bool.and_eq_true, Bool.not_eq_true', beq_iff_eq, decide_eq_true_eq] at guard
      obtain ⟨⟨⟨⟨hf, hv⟩, h1⟩, h8⟩, hs⟩ := guard
      split
      · next hr =>
        refine ⟨fun h => by simp at h, fun ⟨_, _, _, _, _, _, reads, _⟩ => ?_⟩
        simp [readBlocks_eq_some.2 ⟨reads, rfl⟩] at hr
      · next data hr =>
        obtain ⟨reads, rfl⟩ := readBlocks_eq_some.1 hr
        have fields {i : Nat} (hi : i ≤ 52) := header_of_run hb h h1 hi
        simp only [fields (show 2 ≤ 52 by omega), fields (show 6 ≤ 52 by omega),
          fields (show 11 ≤ 52 by omega)]
        split
        · next sum =>
          constructor
          · rintro ⟨⟩
            exact ⟨hf, hv, hk, h1, h8, hs, reads, sum, rfl⟩
          · rintro ⟨-, -, hk', -, -, -, -, -, e⟩
            rw [e, Option.some.inj (hk.symm.trans hk')]
        · next sum => exact ⟨fun h => by simp at h, fun ⟨_, _, _, _, _, _, _, h, _⟩ => (sum h).elim⟩
    · next guard =>
      refine ⟨fun h => by simp at h, fun ⟨hf, hv, _, h1, h8, hs, _⟩ => (guard ?_).elim⟩
      simp only [hf, hv, h1, h8, hs, Bool.not_false, beq_self_eq_true, decide_true, Bool.and_self]

/-! ## The scan's steps (R143, log 32) -/

/-- A voided record whose block count can be read. -/
def Block.voided (b : Block) : Prop :=
  let n := (b.data.getD 10 0).toNat
  b.data.getD 0 0 = 0 ∧ (readRow b 1).isFailed = false ∧ 1 ≤ n ∧ n ≤ 8 ∧ b.addr % 256 + n ≤ 256

theorem scanVoided_of_voided (h : b.whole) (hv : b.voided) :
    scanVoided b = some (b.data.getD 10 0).toNat := by
  have head (i : Nat) (hi : i < 14) := data_getD h (l := [0, 1]) (l' := [2, 3, 4, 5, 6, 7]) rfl hi
  obtain ⟨h0, h1, h2, h3, h4⟩ := hv
  unfold scanVoided
  simp only [head 0 (by omega), head 10 (by omega)]
  refine if_pos ?_
  simp only [Bool.and_eq_true, Bool.not_eq_true', beq_iff_eq, decide_eq_true_eq]
  exact ⟨⟨⟨⟨h0, h1⟩, h2⟩, h3⟩, h4⟩

theorem scanVoided_of_not (h : b.whole) (hv : ¬b.voided) : scanVoided b = none := by
  have head (i : Nat) (hi : i < 14) := data_getD h (l := [0, 1]) (l' := [2, 3, 4, 5, 6, 7]) rfl hi
  unfold scanVoided
  simp only [head 0 (by omega), head 10 (by omega)]
  refine if_neg fun guard => hv ?_
  simp only [Bool.and_eq_true, Bool.not_eq_true', beq_iff_eq, decide_eq_true_eq] at guard
  obtain ⟨⟨⟨⟨h0, h1⟩, h2⟩, h3⟩, h4⟩ := guard
  exact ⟨h0, h1, h2, h3, h4⟩

theorem scanFrom_of_passed (hp : b.addr < skip ∨ b.addr / 256 ∈ half) :
    scanFrom store half (b :: rest) skip = scanFrom store half rest skip := by
  rw [scanFrom]
  exact if_pos (by simpa [sectorOf, Config.sectorBlocks] using hp)

section
variable (hs : skip ≤ b.addr) (hh : b.addr / 256 ∉ half)
include hs hh

theorem scanFrom_of_some (e : scanAccept store b = some x) :
    scanFrom store half (b :: rest) skip = x :: scanFrom store half rest (b.addr + x.blocks) := by
  rw [scanFrom, if_neg (by simpa [sectorOf, Config.sectorBlocks] using ⟨hs, hh⟩), e]

section
variable (h : b.whole) (e : scanAccept store b = none)
include h e

theorem scanFrom_of_voided (hv : b.voided) : scanFrom store half (b :: rest) skip =
    scanFrom store half rest (b.addr + (b.data.getD 10 0).toNat) := by
  rw [scanFrom, if_neg (by simpa [sectorOf, Config.sectorBlocks] using ⟨hs, hh⟩), e]
  simp only [scanVoided_of_voided h hv]

theorem scanFrom_of_neither (hv : ¬b.voided) :
    scanFrom store half (b :: rest) skip = scanFrom store half rest (b.addr + 1) := by
  rw [scanFrom, if_neg (by simpa [sectorOf, Config.sectorBlocks] using ⟨hs, hh⟩), e]
  simp only [scanVoided_of_not h hv]

end

end

end

/-! ## The scan's end as an event (R131, R195, logs 8 and 9) -/

section
variable {s : State} {r : Rws} {dt : Nat} {cells : List (Nat × CellRead)}

/-- With no record held by a block or by the supervisor, a freed place is told to no effect. -/
theorem freedPlace_of_none_held (hd : s.dib.queue = []) (hb : s.bu.outbox = [])
    (ht : s.tps.heldRecovery = none) : freedPlace s = s := by
  rw [freedPlace, testHead_of_empty hd, buFreed_of_empty hb, tpsFreed_of_none ht]

/-- A writer with no record to write stays as it is. -/
theorem writerTest_of_none_waiting (hq : r.queue = []) (hs : r.slot = none) : writerTest r = r := by
  by_cases h : r.wst = .idle ∧ r.recovering = none ∧ r.scanning = false ∧ r.write = none
  · simp [writerTest_of_free h, hq, hs]
  · exact writerTest_of_busy h

/-- The state in which the store has reported and accepts records. -/
def State.storeReported (s : State) : State :=
  (s.setRws { s.rws with recovering := none, accepting := true }).setTps
    { s.tps with storeReported := true }

theorem storeReady_of_none_held (hd : s.dib.queue = []) (hb : s.bu.outbox = [])
    (ht : s.tps.heldRecovery = none) (hi : s.tps.inputsReported = false) (hq : s.rws.queue = [])
    (hs : s.rws.slot = none) : storeReady s = s.storeReported := by
  have freed : freedPlace (s.setRws { s.rws with recovering := none, accepting := true }) =
      s.setRws { s.rws with recovering := none, accepting := true } := freedPlace_of_none_held hd hb ht
  have early : tryEndStartUp s.storeReported = s.storeReported :=
    tryEndStartUp_of_not fun h => Bool.false_ne_true (hi.symm.trans h.2.1)
  have none_waiting : writerTest s.storeReported.rws = s.storeReported.rws :=
    writerTest_of_none_waiting hq hs
  calc storeReady s
      = (tryEndStartUp s.storeReported).setRws (writerTest (tryEndStartUp s.storeReported).rws) :=
        by unfold storeReady; simp only [freed]; rfl
    _ = s.storeReported := by rw [early, none_waiting]; rfl

theorem coldStartScanEnd_of_no_scan (hs : s.awake) (h : s.rws.scanning = false) :
    exec (.coldStartScanEnd dt cells) s = .next (lcService (s.elapse dt)) :=
  next_of_early hs (if_neg (by simp [h]))

@[simp] theorem scanEnd_queue (r : Rws) : (scanEnd r).queue = r.queue := rfl
@[simp] theorem scanEnd_slot (r : Rws) : (scanEnd r).slot = r.slot := rfl

/-- The store as the scan has read it, and as it is left. -/
def State.scanned (cells : List (Nat × CellRead)) (s : State) : Rws :=
  scanEnd { s.rws with store := cells.foldl (fun st x => ageBlock st x.1 [x.2]) s.rws.store }

theorem coldStartScanEnd_of_scan (hs : s.awake) (h : s.rws.scanning = true) :
    exec (.coldStartScanEnd dt cells) s =
      .next (finish (storeReady ((s.elapse dt).setRws ((s.elapse dt).scanned cells)))) :=
  next_of_finish hs (if_pos (by simpa using h))

end

end Sys2Proof.Machine
end

section
/-! PROOFS. The record store: what a block reads as after it is written, and the index that the cold start's
scan rebuilds (R127, R128, R143). -/

namespace Sys2Proof.Machine

/-! ## Blocks of a store in its form (R125) -/

section
variable {b c : Block} {l l' : List Block} {a addr : Nat} {p : List Byte}

theorem blockAt_cons : blockAt (c :: l) a = if c.addr = a then c else blockAt l a := by
  by_cases h : c.addr = a <;> simp [blockAt, h]

@[simp] theorem blockAt_addr : (blockAt l a).addr = a := by
  induction l with
  | nil => rfl
  | cons c l ih => rw [blockAt_cons]; split <;> assumption

/-- A block that is not listed reads erased. -/
theorem blockAt_of_absent (h : ∀ b ∈ l, b.addr ≠ a) : blockAt l a = .erased a := by
  have : l.find? (fun b => b.addr == a) = none :=
    List.find?_eq_none.2 fun b hb => by simpa using h b hb
  simp [blockAt, this]

theorem storeWf_pairwise (h : storeWf l = true) : l.Pairwise fun x y => x.addr < y.addr := by
  induction l with
  | nil => exact .nil
  | cons c l ih =>
    obtain ⟨-, -, -, -, rising, rest⟩ := storeWf_cons.1 h
    exact .cons rising (ih rest)

theorem storeWf_addr_lt (h : storeWf l = true) (hb : b ∈ l) : b.addr < 8192 := by
  induction l with
  | nil => cases hb
  | cons c l ih =>
    obtain ⟨hc, -, -, -, -, rest⟩ := storeWf_cons.1 h
    rcases List.mem_cons.1 hb with rfl | hb
    · exact hc
    · exact ih rest hb

theorem blockAt_of_mem (h : storeWf l = true) (hb : b ∈ l) : blockAt l b.addr = b := by
  induction l with
  | nil => cases hb
  | cons c l ih =>
    obtain ⟨-, -, -, -, rising, rest⟩ := storeWf_cons.1 h
    rcases List.mem_cons.1 hb with rfl | hb
    · rw [blockAt_cons, if_pos rfl]
    · rw [blockAt_cons, if_neg (rising b hb).ne, ih rest hb]

theorem eq_erased (hw : b.whole) (he : b.isErased = true) : b = .erased b.addr := by
  obtain ⟨addr, normal, margin⟩ := b
  simp only [Block.isErased, Bool.and_eq_true, List.all_eq_true, beq_iff_eq] at he
  simp only [Block.erased, Block.mk.injEq, true_and]
  exact ⟨List.eq_replicate_iff.2 ⟨hw.1, he.1⟩, List.eq_replicate_iff.2 ⟨hw.2, he.2⟩⟩

/-- An erased block is read where none is listed. -/
theorem blockAt_of_erased (hw : b.whole) (he : b.isErased = true) (habs : ∀ c ∈ l, c.addr ≠ b.addr) :
    blockAt l a = if b.addr = a then b else blockAt l a := by
  split
  · next e => rw [← e, blockAt_of_absent habs, ← eq_erased hw he]
  · rfl

/-- A block written reads as written, and every other as before. -/
theorem blockAt_insertBlock (h : storeWf l = true) (hw : b.whole) (a : Nat) :
    blockAt (insertBlock b l) a = if b.addr = a then b else blockAt l a := by
  induction l with
  | nil =>
    unfold insertBlock
    split
    · next he => exact blockAt_of_erased hw he (by simp)
    · exact blockAt_cons
  | cons c l ih =>
    obtain ⟨-, -, -, -, rising, rest⟩ := storeWf_cons.1 h
    unfold insertBlock
    split
    · next hlt =>
      split
      · next he =>
        refine blockAt_of_erased hw he fun d hd => ?_
        rcases List.mem_cons.1 hd with rfl | hd
        · exact hlt.ne'
        · exact (hlt.trans (rising d hd)).ne'
      · exact blockAt_cons
    · next hge =>
      split
      · next heq =>
        split
        · next he =>
          rw [blockAt_cons, heq]
          split
          · next e =>
            rw [← e, blockAt_of_absent fun d hd => (rising d hd).ne', eq_erased hw he, heq]
          · rfl
        · rw [blockAt_cons, blockAt_cons, heq]
          split <;> rfl
      · next hne =>
        rw [blockAt_cons, blockAt_cons, ih rest]
        split
        · next e => rw [if_neg (e ▸ hne)]
        · rfl

theorem blockAt_whole (h : storeWf l = true) (a : Nat) : (blockAt l a).whole := blockAt_length h a

/-- What a block reads as once a pattern is programmed into it (R125). -/
def Block.programmed (b : Block) (pattern : List Byte) : Block :=
  let p := (pattern ++ List.replicate 64 0xFF#8).take 64
  ⟨b.addr, b.normal.zipWith (· &&& ·) p, b.margin.zipWith (· &&& ·) p⟩

theorem programmed_whole (hw : b.whole) (p : List Byte) : (b.programmed p).whole := by
  simp [Block.whole, Block.programmed, hw.1, hw.2]

theorem programBlock_eq : programBlock l addr p = putBlock ((blockAt l addr).programmed p) l := by
  simp [programBlock, Block.programmed]

theorem blockAt_programBlock (h : storeWf l = true) (hlt : addr < 8192) (a : Nat) :
    blockAt (programBlock l addr p) a = if addr = a then (blockAt l addr).programmed p else blockAt l a := by
  have at_addr : ((blockAt l addr).programmed p).addr = addr := blockAt_addr
  have below : ((blockAt l addr).programmed p).addr < Config.storeBlocks := by rw [at_addr]; exact hlt
  rw [programBlock_eq, putBlock, if_pos below,
    blockAt_insertBlock h (programmed_whole (blockAt_whole h addr) p), at_addr]

/-! ## Voiding a list of blocks -/

/-- The store once the blocks of the records of a list are voided. -/
def voidAll (l : List Block) (voided : List Readable) : List Block :=
  voided.foldl (fun st x => programBlock st x.addr voidPattern) l

section
variable {voided : List Readable} (h : storeWf l = true) (hlt : ∀ x ∈ voided, x.addr < 8192)
include h hlt

theorem blockAt_voidAll_of_not (ha : ∀ x ∈ voided, x.addr ≠ a) :
    blockAt (voidAll l voided) a = blockAt l a := by
  induction voided generalizing l with
  | nil => rfl
  | cons v voided ih =>
    obtain ⟨hv, hlt⟩ := List.forall_mem_cons.1 hlt
    obtain ⟨hne, ha⟩ := List.forall_mem_cons.1 ha
    calc blockAt (voidAll (programBlock l v.addr voidPattern) voided) a
        = blockAt (programBlock l v.addr voidPattern) a := ih (storeWf_programBlock h _ _) hlt ha
      _ = blockAt l a := by rw [blockAt_programBlock h hv, if_neg hne]

theorem blockAt_voidAll_of_mem {x : Readable} (hd : (voided.map Readable.addr).Nodup) (hx : x ∈ voided) :
    blockAt (voidAll l voided) x.addr = (blockAt l x.addr).programmed voidPattern := by
  induction voided generalizing l with
  | nil => cases hx
  | cons v voided ih =>
    obtain ⟨hv, hrest⟩ := List.forall_mem_cons.1 hlt
    obtain ⟨hne, hd⟩ := List.nodup_cons.1 hd
    have hwf := storeWf_programBlock h v.addr voidPattern
    rcases List.mem_cons.1 hx with rfl | hx
    · have habs : ∀ y ∈ voided, y.addr ≠ x.addr := fun y hy e =>
        hne (e ▸ List.mem_map_of_mem hy)
      calc blockAt (voidAll (programBlock l x.addr voidPattern) voided) x.addr
          = blockAt (programBlock l x.addr voidPattern) x.addr := blockAt_voidAll_of_not hwf hrest habs
        _ = (blockAt l x.addr).programmed voidPattern := by rw [blockAt_programBlock h hv, if_pos rfl]
    · have hne : v.addr ≠ x.addr := fun e => hne (e ▸ List.mem_map_of_mem hx)
      calc blockAt (voidAll (programBlock l v.addr voidPattern) voided) x.addr
          = (blockAt (programBlock l v.addr voidPattern) x.addr).programmed voidPattern :=
            ih hwf hrest hd hx
        _ = (blockAt l x.addr).programmed voidPattern := by rw [blockAt_programBlock h hv, if_neg hne]

end

/-! ## Sectors that read erased (R128, R143) -/

/-- The block at an address reads erased at the normal level. -/
def ReadsErased (l : List Block) (a : Nat) : Prop := (blockAt l a).normal = List.replicate 64 0xFF#8

theorem readsErased_iff (hw : b.whole) : b.readsErased = true ↔ b.normal = List.replicate 64 0xFF#8 := by
  rw [List.eq_replicate_iff]
  simp [Block.readsErased, hw.1]

theorem erasedFrom_iff {half : List Nat} {h : Nat} (hwf : storeWf l = true) :
    erasedFrom l half h = true ↔
      h / 256 ∉ half ∧ ∀ a ∈ List.range 256, h ≤ h / 256 * 256 + a → ReadsErased l (h / 256 * 256 + a) := by
  have listed : l.all (fun b => sectorOf b.addr != sectorOf h || decide (b.addr < h) || b.readsErased) = true ↔
      ∀ b ∈ l, b.addr / 256 = h / 256 → h ≤ b.addr → b.readsErased = true := by
    simp only [List.all_eq_true, Bool.or_eq_true, bne_iff_ne, decide_eq_true_eq, sectorOf, Config.sectorBlocks]
    refine forall₂_congr fun b _ => ⟨fun hb e hle => ?_, fun hb => ?_⟩
    · rcases hb with (hb | hb) | hb
      · exact absurd e hb
      · omega
      · exact hb
    · by_cases e : b.addr / 256 = h / 256
      · by_cases hle : h ≤ b.addr
        · exact .inr (hb e hle)
        · exact .inl (.inr (by omega))
      · exact .inl (.inl e)
  rw [erasedFrom, Bool.and_eq_true, listed]
  simp only [Bool.not_eq_true', List.contains_eq_mem, decide_eq_false_iff_not, sectorOf, Config.sectorBlocks,
    List.mem_range]
  refine and_congr_right fun _ => ⟨fun hall a ha hle => ?_, fun hall b hb e hle => ?_⟩
  · by_cases hm : ∃ b ∈ l, b.addr = h / 256 * 256 + a
    · obtain ⟨b, hb, e⟩ := hm
      rw [← e, ReadsErased, blockAt_of_mem hwf hb]
      exact (readsErased_iff (storeWf_mem hwf hb)).1 (hall b hb (by omega) (by omega))
    · rw [ReadsErased, blockAt_of_absent fun b hb e => hm ⟨b, hb, e⟩]
      rfl
  · have here := hall (b.addr % 256) (by omega) (by omega)
    rw [show h / 256 * 256 + b.addr % 256 = b.addr by omega, ReadsErased, blockAt_of_mem hwf hb] at here
    exact (readsErased_iff (storeWf_mem hwf hb)).2 here

/-- The first data byte of a block that reads erased. -/
theorem data_getD_zero_of_erased (hb : b.normal = List.replicate 64 0xFF#8) : b.data.getD 0 0 = 0xFF#8 := by
  have first : readRow b 0 = .good (List.replicate 7 0xFF#8) := by
    simp only [readRow, hb]
    rfl
  simp [Block.data, readRows, first, RowRead.data]

theorem programmed_void_normal_ne (hw : b.whole) :
    (b.programmed voidPattern).normal ≠ List.replicate 64 0xFF#8 := by
  obtain ⟨addr, normal, margin⟩ := b
  intro e
  cases normal with
  | nil => simp [Block.whole] at hw
  | cons x normal => simp [Block.programmed, voidPattern, List.replicate_succ] at e

end

/-! ## The accepted records (R143) -/

section
variable {store l : List Block} {half : List Nat} {b : Block} {x y : Readable} {skip : Nat}

theorem scanAccept_addr (hb : blockAt store b.addr = b) (h : b.whole) (e : scanAccept store b = some x) :
    x.addr = b.addr := by
  obtain ⟨-, -, -, -, -, -, -, -, hx⟩ := (scanAccept_iff hb h).1 e
  rw [hx]

/-- The block of an accepted record does not read erased: its first byte reads 5AH. -/
theorem scanAccept_normal_ne (hb : blockAt store b.addr = b) (h : b.whole) (e : scanAccept store b = some x) :
    b.normal ≠ List.replicate 64 0xFF#8 := by
  obtain ⟨-, mark, -⟩ := (scanAccept_iff hb h).1 e
  intro he
  rw [data_getD_zero_of_erased he] at mark
  exact absurd mark (by decide)

/-- What the scan does with a block: it steps on, or accepts the record that begins there. -/
theorem scanFrom_cons : ∃ skip', scanFrom store half (b :: l) skip = scanFrom store half l skip'
    ∨ ∃ x, scanAccept store b = some x
      ∧ scanFrom store half (b :: l) skip = x :: scanFrom store half l skip' := by
  rw [scanFrom]
  split
  · exact ⟨_, .inl rfl⟩
  · split
    · next x hx => exact ⟨_, .inr ⟨x, hx, rfl⟩⟩
    · split <;> exact ⟨_, .inl rfl⟩

theorem scanFrom_mem (hx : x ∈ scanFrom store half l skip) : ∃ b ∈ l, scanAccept store b = some x := by
  induction l generalizing skip with
  | nil => simp [scanFrom] at hx
  | cons b l ih =>
    obtain ⟨skip', e | ⟨y, hy, e⟩⟩ := scanFrom_cons (store := store) (half := half) (b := b) (l := l) (skip := skip)
    · obtain ⟨c, hc, hx⟩ := ih (e ▸ hx)
      exact ⟨c, List.mem_cons_of_mem _ hc, hx⟩
    · rcases List.mem_cons.1 (e ▸ hx) with rfl | hx
      · exact ⟨b, List.mem_cons_self, hy⟩
      · obtain ⟨c, hc, hx⟩ := ih hx
        exact ⟨c, List.mem_cons_of_mem _ hc, hx⟩

/-- The records are found in the order of their addresses. -/
theorem scanFrom_pairwise (hl : l.Pairwise fun x y => x.addr < y.addr)
    (ha : ∀ b ∈ l, ∀ x, scanAccept store b = some x → x.addr = b.addr) (skip : Nat) :
    (scanFrom store half l skip).Pairwise fun x y => x.addr < y.addr := by
  induction l generalizing skip with
  | nil => simp [scanFrom]
  | cons b l ih =>
    obtain ⟨hb, hl⟩ := List.pairwise_cons.1 hl
    obtain ⟨hab, ha⟩ := List.forall_mem_cons.1 ha
    obtain ⟨skip', e | ⟨y, hy, e⟩⟩ := scanFrom_cons (store := store) (half := half) (b := b) (l := l) (skip := skip)
    · rw [e]
      exact ih hl ha skip'
    · rw [e]
      refine .cons (fun x hx => ?_) (ih hl ha skip')
      obtain ⟨c, hc, hx⟩ := scanFrom_mem hx
      rw [hab y hy, ha c hc x hx]
      exact hb c hc

end

/-- The records that the scan accepts, in the order of their addresses. -/
def Rws.found (r : Rws) : List Readable := scanFrom r.store r.halfErased r.store 0

section
variable {r : Rws} (h : storeWf r.store = true)
include h

theorem found_addr_lt : ∀ x ∈ r.found, x.addr < 8192 := by
  intro x hx
  obtain ⟨b, hb, e⟩ := scanFrom_mem hx
  rw [scanAccept_addr (blockAt_of_mem h hb) (storeWf_mem h hb) e]
  exact storeWf_addr_lt h hb

theorem found_not_erased : ∀ x ∈ r.found, ¬ReadsErased r.store x.addr := by
  intro x hx
  obtain ⟨b, hb, e⟩ := scanFrom_mem hx
  have here := blockAt_of_mem h hb
  have whole := storeWf_mem h hb
  rw [scanAccept_addr here whole e, ReadsErased, here]
  exact scanAccept_normal_ne here whole e

theorem found_pairwise : r.found.Pairwise fun x y => x.addr < y.addr :=
  scanFrom_pairwise (storeWf_pairwise h)
    (fun _ hb _ e => scanAccept_addr (blockAt_of_mem h hb) (storeWf_mem h hb) e) 0

end

/-! ## The highest record and the head (R143, log 15) -/

section
variable {l : List Readable} {x : Readable}

theorem highest_append_singleton : highest (l ++ [x]) =
    some (((highest l).map fun y => if y.seq < x.seq then x else y).getD x) := by
  simp only [highest, List.foldl_append, List.foldl_cons, List.foldl_nil]
  split
  · next e => simp [e]
  · next y e => simp only [e, Option.map_some, Option.getD_some]; split <;> rfl

theorem highest_of_ne_nil (h : l ≠ []) : ∃ y ∈ l, highest l = some y ∧ ∀ z ∈ l, z.seq ≤ y.seq := by
  induction l using List.reverseRecOn with
  | nil => exact absurd rfl h
  | append_singleton l x ih =>
    rw [highest_append_singleton]
    by_cases hl : l = []
    · exact ⟨x, by simp, by simp [hl, highest], by simp [hl]⟩
    · obtain ⟨y, hy, e, top⟩ := ih hl
      simp only [e, Option.map_some, Option.getD_some]
      by_cases hlt : y.seq < x.seq
      · refine ⟨x, by simp, by rw [if_pos hlt], fun z hz => ?_⟩
        rcases List.mem_append.1 hz with hz | hz
        · exact (top z hz).trans hlt.le
        · rw [List.mem_singleton.1 hz]
      · refine ⟨y, by simp [hy], by rw [if_neg hlt], fun z hz => ?_⟩
        rcases List.mem_append.1 hz with hz | hz
        · exact top z hz
        · rw [List.mem_singleton.1 hz]
          omega

theorem highest_of_top (hx : x ∈ l) (top : ∀ y ∈ l, y = x ∨ y.seq < x.seq) : highest l = some x := by
  obtain ⟨y, hy, e, above⟩ := highest_of_ne_nil (List.ne_nil_of_mem hx)
  rcases top y hy with rfl | hlt
  · exact e
  · exact absurd (above x hx) (by omega)

theorem scanHead_lt (store : List Block) (half : List Nat) (x : Readable) :
    scanHead store half x < 8192 := by
  unfold scanHead
  simp only []
  split
  · exact Nat.mod_lt _ (by decide)
  · simp only [nextSector, Config.sectorCount, Config.sectorBlocks]
    omega

end

/-! ## Store order (R127, R143) -/

/-- Where a record stands in store order, with the sector after the head's first. -/
def storeKey (head : Nat) (x : Readable) : Nat :=
  (x.addr / 256 + 31 - head / 256) % 32 * 256 + x.addr % 256

section
variable {head : Nat} {l : List Readable} (hh : head < 8192) (hl : ∀ x ∈ l, x.addr < 8192)
include hh hl

theorem mem_storeOrder {x : Readable} : x ∈ storeOrder head l ↔ x ∈ l := by
  simp only [storeOrder, List.mem_flatMap, List.mem_range, List.mem_filter, beq_iff_eq, sectorOf,
    Config.sectorBlocks, Config.sectorCount]
  refine ⟨fun ⟨_, _, hx, _⟩ => hx, fun hx => ⟨(x.addr / 256 + 31 - head / 256) % 32, ?_, hx, ?_⟩⟩
  · omega
  · have := hl x hx
    omega

theorem storeOrder_pairwise (hp : l.Pairwise fun x y => x.addr < y.addr) :
    (storeOrder head l).Pairwise fun x y => storeKey head x < storeKey head y := by
  have bucket (k : Nat) (hk : k < 32) (x : Readable)
      (hx : x ∈ l.filter fun x => sectorOf x.addr == (sectorOf head + 1 + k) % Config.sectorCount) :
      x.addr < 8192 ∧ storeKey head x = k * 256 + x.addr % 256
        ∧ x.addr / 256 = (head / 256 + 1 + k) % 32 := by
    obtain ⟨hx, hs⟩ := List.mem_filter.1 hx
    simp only [sectorOf, Config.sectorBlocks, Config.sectorCount, beq_iff_eq] at hs
    refine ⟨hl x hx, ?_, hs⟩
    rw [storeKey]
    omega
  refine List.pairwise_flatMap.2 ⟨fun k hk => ?_, ?_⟩
  · refine (hp.filter _).imp_of_mem fun {x y} hx hy hlt => ?_
    obtain ⟨-, kx, sx⟩ := bucket k (List.mem_range.1 hk) x hx
    obtain ⟨-, ky, sy⟩ := bucket k (List.mem_range.1 hk) y hy
    omega
  · refine List.pairwise_lt_range.imp_of_mem fun {j k} hj hk hlt x hx y hy => ?_
    obtain ⟨-, kx, -⟩ := bucket j (List.mem_range.1 hj) x hx
    obtain ⟨-, ky, -⟩ := bucket k (List.mem_range.1 hk) y hy
    omega

end

/-! ## Records kept and records voided (R127, log 47) -/

section
variable {l : List Readable} {x z : Readable} {last : Nat} {key : Readable → Nat}

theorem keepRising_cons_of_lt (h : last < x.seq) : keepRising (x :: l) last =
    (x :: (keepRising l x.seq).1, (keepRising l x.seq).2) := by
  rw [keepRising, if_pos h]

theorem keepRising_cons_of_not (h : ¬last < x.seq) : keepRising (x :: l) last =
    ((keepRising l last).1, x :: (keepRising l last).2) := by
  rw [keepRising, if_neg h]

/-- Every record is kept or voided, once. -/
theorem keepRising_perm (l : List Readable) (last : Nat) :
    ((keepRising l last).1 ++ (keepRising l last).2).Perm l := by
  induction l generalizing last with
  | nil => exact .nil
  | cons x l ih =>
    by_cases h : last < x.seq
    · rw [keepRising_cons_of_lt h]
      exact (ih x.seq).cons x
    · rw [keepRising_cons_of_not h]
      exact List.perm_middle.trans ((ih last).cons x)

theorem keepRising_sublist (l : List Readable) (last : Nat) : (keepRising l last).1.Sublist l := by
  induction l generalizing last with
  | nil => exact .slnil
  | cons x l ih =>
    by_cases h : last < x.seq
    · rw [keepRising_cons_of_lt h]
      exact (ih x.seq).cons_cons x
    · rw [keepRising_cons_of_not h]
      exact (ih last).cons x

theorem keepRising_above (l : List Readable) (last : Nat) : ∀ x ∈ (keepRising l last).1, last < x.seq := by
  induction l generalizing last with
  | nil => simp [keepRising]
  | cons x l ih =>
    by_cases h : last < x.seq
    · rw [keepRising_cons_of_lt h]
      exact List.forall_mem_cons.2 ⟨h, fun y hy => h.trans (ih x.seq y hy)⟩
    · rw [keepRising_cons_of_not h]
      exact ih last

theorem keepRising_rising (l : List Readable) (last : Nat) :
    (keepRising l last).1.Pairwise fun x y => x.seq < y.seq := by
  induction l generalizing last with
  | nil => simp [keepRising]
  | cons x l ih =>
    by_cases h : last < x.seq
    · rw [keepRising_cons_of_lt h]
      exact .cons (keepRising_above l x.seq) (ih x.seq)
    · rw [keepRising_cons_of_not h]
      exact ih last

/-- A record is kept exactly where its number is above that of every one kept before it (R127). -/
theorem mem_keepRising (hl : l.Pairwise fun x y => key x < key y) (hz : z ∈ l) (hlast : last < z.seq) :
    z ∈ (keepRising l last).1 ↔ ∀ y ∈ (keepRising l last).1, key y < key z → y.seq < z.seq := by
  induction l generalizing last with
  | nil => cases hz
  | cons x l ih =>
    obtain ⟨hx, hl⟩ := List.pairwise_cons.1 hl
    by_cases h : last < x.seq
    · rw [keepRising_cons_of_lt h]
      have later := (keepRising_sublist l x.seq).subset
      rcases List.mem_cons.1 hz with rfl | hz
      · refine iff_of_true List.mem_cons_self (List.forall_mem_cons.2 ⟨fun h => absurd h (lt_irrefl _), ?_⟩)
        exact fun y hy hlt => absurd (hx y (later hy)) hlt.asymm
      · have hne : z ≠ x := fun e => absurd (hx z hz) (by rw [e]; exact lt_irrefl _)
        rw [List.forall_mem_cons, List.mem_cons, or_iff_right hne]
        by_cases hlt : x.seq < z.seq
        · rw [ih hl hz hlt]
          exact (and_iff_right fun _ => hlt).symm
        · exact iff_of_false (fun hk => hlt (keepRising_above l x.seq z hk)) fun hk => hlt (hk.1 (hx z hz))
    · rw [keepRising_cons_of_not h]
      rcases List.mem_cons.1 hz with rfl | hz
      · exact absurd hlast h
      · exact ih hl hz hlast

end

/-! ## The index that the scan leaves (R127, R128, R143) -/

/-- The store's part with a head, the number next to use, and the records kept and voided. -/
def Rws.rebuilt (r : Rws) (head next : Nat) (kept voided : List Readable) : Rws :=
  let store := voidAll r.store voided
  { r with
    store := store
    head := head
    sectors := (List.range Config.sectorCount).map (scanSector store r.halfErased kept)
    readable := kept
    earliest := earliestOf kept
    nextSeq := next
    scanning := false
    accepting := true }

/-- Records kept and voided: each found record is one of them, and the kept ones rise in store order. -/
structure Sifted (head : Nat) (found kept voided : List Readable) : Prop where
  perm : (kept ++ voided).Perm found
  rising : kept.Pairwise fun x y => x.seq < y.seq ∧ storeKey head x < storeKey head y

section
variable {r : Rws} {x : Readable} {head : Nat} {kept voided : List Readable}

theorem scanEnd_of_none (hf : r.found = []) : scanEnd r = r.rebuilt 0 1 [] [] := by
  have hf : scanFrom r.store r.halfErased r.store 0 = [] := hf
  simp only [scanEnd, hf]
  rfl

theorem scanEnd_of_top (hx : highest r.found = some x) (hs : x.seq = 4294967295) :
    scanEnd r = r.rebuilt (scanHead r.store r.halfErased x) 1 [] r.found := by
  have hx : highest (scanFrom r.store r.halfErased r.store 0) = some x := hx
  simp only [scanEnd, hx, hs]
  rfl

/-- The records kept and voided with the head after the highest found. -/
def Rws.sifted (r : Rws) (x : Readable) : List Readable × List Readable :=
  keepRising (storeOrder (scanHead r.store r.halfErased x) r.found) 0

theorem scanEnd_of_highest (hx : highest r.found = some x) (hs : x.seq ≠ 4294967295) :
    scanEnd r = r.rebuilt (scanHead r.store r.halfErased x) (x.seq + 1) (r.sifted x).1 (r.sifted x).2 := by
  have hx : highest (scanFrom r.store r.halfErased r.store 0) = some x := hx
  simp only [scanEnd, hx, Config.top32, if_neg hs]
  rfl

section
variable (h : storeWf r.store = true)
include h

theorem storeOrder_perm (hh : head < 8192) : (storeOrder head r.found).Perm r.found := by
  have ordered := storeOrder_pairwise hh (found_addr_lt h) (found_pairwise h)
  refine (List.perm_ext_iff_of_nodup ?_ ?_).2 fun x => mem_storeOrder hh (found_addr_lt h)
  · exact ordered.imp fun hlt e => by rw [e] at hlt; exact absurd hlt (lt_irrefl _)
  · exact (found_pairwise h).imp fun hlt e => by rw [e] at hlt; exact absurd hlt (lt_irrefl _)

theorem sifted_of_highest (x : Readable) :
    Sifted (scanHead r.store r.halfErased x) r.found (r.sifted x).1 (r.sifted x).2 := by
  have hh := scanHead_lt r.store r.halfErased x
  have ordered := storeOrder_pairwise hh (found_addr_lt h) (found_pairwise h)
  refine ⟨(keepRising_perm _ 0).trans (storeOrder_perm h hh), ?_⟩
  exact (keepRising_rising _ 0).and (ordered.sublist (keepRising_sublist _ 0))

/-- However the scan ends, it leaves an index of the found records kept and voided. -/
theorem scanEnd_cases : ∃ head next kept voided,
    scanEnd r = r.rebuilt head next kept voided ∧ Sifted head r.found kept voided := by
  by_cases hf : r.found = []
  · exact ⟨_, _, _, _, scanEnd_of_none hf, by rw [hf]; exact .nil, .nil⟩
  · obtain ⟨x, -, hx, -⟩ := highest_of_ne_nil hf
    by_cases hs : x.seq = 4294967295
    · exact ⟨_, _, _, _, scanEnd_of_top hx hs, .refl _, .nil⟩
    · exact ⟨_, _, _, _, scanEnd_of_highest hx hs, sifted_of_highest h x⟩

theorem mem_sifted_iff (x : Readable) {z : Readable} (hz : z ∈ r.found) (hlast : 0 < z.seq) :
    z ∈ (r.sifted x).1 ↔ ∀ y ∈ (r.sifted x).1,
      storeKey (scanHead r.store r.halfErased x) y < storeKey (scanHead r.store r.halfErased x) z →
        y.seq < z.seq := by
  have hh := scanHead_lt r.store r.halfErased x
  exact mem_keepRising (storeOrder_pairwise hh (found_addr_lt h) (found_pairwise h))
    ((mem_storeOrder hh (found_addr_lt h)).2 hz) hlast

/-! ### The voided blocks -/

section
variable (hs : Sifted head r.found kept voided)
include hs

theorem mem_voided_iff : x ∈ voided ↔ x ∈ r.found ∧ x ∉ kept := by
  have distinct : (kept ++ voided).Nodup := hs.perm.nodup_iff.2 <|
    (found_pairwise h).imp fun hlt e => by rw [e] at hlt; exact absurd hlt (lt_irrefl _)
  obtain ⟨-, -, apart⟩ := List.nodup_append.1 distinct
  rw [← hs.perm.mem_iff, List.mem_append]
  exact ⟨fun hx => ⟨.inr hx, fun hk => apart x hk x hx rfl⟩, fun ⟨hx, hk⟩ => hx.resolve_left hk⟩

theorem voided_addr_nodup : (voided.map Readable.addr).Nodup := by
  have distinct : ((kept ++ voided).map Readable.addr).Nodup := (hs.perm.map _).nodup_iff.2 <|
    List.pairwise_map.2 ((found_pairwise h).imp fun hlt => hlt.ne)
  rw [List.map_append] at distinct
  exact (List.nodup_append.1 distinct).2.1

theorem voided_addr_lt : ∀ x ∈ voided, x.addr < 8192 := fun x hx =>
  found_addr_lt h x ((mem_voided_iff h hs).1 hx).1

theorem blockAt_voided (hx : x ∈ voided) :
    blockAt (voidAll r.store voided) x.addr = blockAt (programBlock r.store x.addr voidPattern) x.addr := by
  rw [blockAt_voidAll_of_mem h (voided_addr_lt h hs) (voided_addr_nodup h hs) hx,
    blockAt_programBlock h (voided_addr_lt h hs x hx), if_pos rfl]

/-- Voiding leaves what reads erased, and what does not, as it is. -/
theorem readsErased_voidAll (a : Nat) : ReadsErased (voidAll r.store voided) a ↔ ReadsErased r.store a := by
  by_cases ha : ∃ x ∈ voided, x.addr = a
  · obtain ⟨x, hx, rfl⟩ := ha
    refine iff_of_false ?_ (found_not_erased h x ((mem_voided_iff h hs).1 hx).1)
    rw [ReadsErased, blockAt_voidAll_of_mem h (voided_addr_lt h hs) (voided_addr_nodup h hs) hx]
    exact programmed_void_normal_ne (blockAt_whole h _)
  · rw [ReadsErased, ReadsErased, blockAt_voidAll_of_not h (voided_addr_lt h hs) fun x hx e => ha ⟨x, hx, e⟩]

/-- Sector `k` reads erased, and no erase of it was cut short. -/
def Rws.sectorErased (r : Rws) (k : Nat) : Prop :=
  k ∉ r.halfErased ∧ ∀ a ∈ List.range 256, ReadsErased r.store (k * 256 + a)

theorem erasedFrom_voidAll {k : Nat} :
    erasedFrom (voidAll r.store voided) r.halfErased (k * 256) = true ↔ r.sectorErased k := by
  have wf : storeWf (voidAll r.store voided) = true :=
    storeWf_foldl (fun _ _ hl => storeWf_programBlock hl _ _) voided h
  rw [erasedFrom_iff wf, Nat.mul_div_cancel k (by decide)]
  simp only [readsErased_voidAll h hs, Nat.le_add_right, true_imp_iff, Rws.sectorErased]

theorem rebuilt_sector_of_erased {k next : Nat} (hk : k < 32) (he : r.sectorErased k) :
    (r.rebuilt head next kept voided).sectors[k]? = some .erased := by
  have entry : scanSector (voidAll r.store voided) r.halfErased kept k = .erased :=
    if_pos ((erasedFrom_voidAll h hs).2 he)
  simp [Rws.rebuilt, Config.sectorCount, List.getElem?_range hk, entry]

theorem rebuilt_sector_of_not {k next : Nat} (hk : k < 32) (he : ¬r.sectorErased k) :
    (r.rebuilt head next kept voided).sectors[k]? =
      some (.inUse ((kept.find? fun x => x.addr / 256 == k).map Readable.seq)) := by
  have entry : scanSector (voidAll r.store voided) r.halfErased kept k =
      .inUse ((kept.find? fun x => x.addr / 256 == k).map Readable.seq) :=
    if_neg (mt (erasedFrom_voidAll h hs).1 he)
  simp [Rws.rebuilt, Config.sectorCount, List.getElem?_range hk, entry]

end

end

/-! ### The head and the numbers -/

section
variable (h : storeWf r.store = true)
include h

/-- The block after a record is the head where the rest of its sector reads erased. -/
theorem scanHead_of_free (x : Readable) :
    let a := (x.addr + x.blocks) % 8192
    let free := a / 256 ∉ r.halfErased
      ∧ ∀ i ∈ List.range 256, a ≤ a / 256 * 256 + i → ReadsErased r.store (a / 256 * 256 + i)
    (free → scanHead r.store r.halfErased x = a)
      ∧ (¬free → scanHead r.store r.halfErased x = (a / 256 + 1) % 32 * 256) := by
  intro a free
  exact ⟨fun hf => if_pos ((erasedFrom_iff h).2 hf), fun hf => if_neg (mt (erasedFrom_iff h).1 hf)⟩

/-- The highest record gives the head and the number next to use, and decides what is kept (R127, R143). -/
theorem scanEnd_of_highest_seq (hx : x ∈ r.found) (top : ∀ y ∈ r.found, y = x ∨ y.seq < x.seq) :
    (scanEnd r).head = scanHead r.store r.halfErased x
      ∧ (x.seq = 4294967295 → (scanEnd r).nextSeq = 1 ∧ (scanEnd r).readable = [])
      ∧ (x.seq ≠ 4294967295 → (scanEnd r).nextSeq = x.seq + 1
        ∧ ∀ z ∈ r.found, 0 < z.seq → (z ∈ (scanEnd r).readable ↔ ∀ y ∈ (scanEnd r).readable,
          storeKey (scanEnd r).head y < storeKey (scanEnd r).head z → y.seq < z.seq)) := by
  have highest_found := highest_of_top hx top
  by_cases hs : x.seq = 4294967295
  · rw [scanEnd_of_top highest_found hs]
    exact ⟨rfl, fun _ => ⟨rfl, rfl⟩, fun hn => absurd hs hn⟩
  · rw [scanEnd_of_highest highest_found hs]
    exact ⟨rfl, fun he => absurd he hs, fun _ => ⟨rfl, fun z hz => mem_sifted_iff h x hz⟩⟩

end

end

/-! ## The obligation -/

/-- Settles O58, in its four parts: the scan's end as an event, the candidates, the scan's steps, and the
index as the records kept and voided leave it. -/
theorem theScanRebuildsTheIndex : Obligations.TheScanRebuildsTheIndex := by
  unfold Obligations.TheScanRebuildsTheIndex
  refine ⟨fun dt cells s hs => ?_, fun store b x hb hn hm => ?_,
    fun store rest half b skip hn hm => ?_, fun r h => ?_⟩
  · intro u c r t v
    have scanned : u.scanned cells = r := by simp [u, r, State.scanned]
    refine ⟨coldStartScanEnd_of_no_scan hs, fun hsc => ?_, fun hsc hd hb ht hi hq hsl => ?_⟩
    · rw [show c = _ from coldStartScanEnd_of_scan hs hsc, scanned]
      rfl
    · have ready := storeReady_of_none_held (s := u.setRws r) (by simpa [u] using hd) (by simpa [u] using hb)
        (by simpa [u] using ht) (by simpa [u] using hi) (by simpa [u, r] using hq) (by simpa [u, r] using hsl)
      have quiet : (u.setRws r).storeReported.reports = [] := (State.elapse_reports dt s).trans hs.2
      rw [show c = _ from coldStartScanEnd_of_scan hs hsc, scanned, ready, finish_of_nil quiet,
        ← State.elapse_tps (dt := dt)]
      rfl
  · intro data head n
    have here : head = b.data := by
      show (blockAt store b.addr).data = b.data
      rw [hb]
    clear_value head
    subst here
    exact scanAccept_iff hb ⟨hn, hm⟩
  · intro head n voided
    refine ⟨rfl, scanFrom_of_passed, fun hs hh => ⟨fun x => scanFrom_of_some hs hh, fun hnone => ?_⟩⟩
    split
    · next hv => exact scanFrom_of_voided hs hh ⟨hn, hm⟩ hnone hv
    · next hv => exact scanFrom_of_neither hs hh ⟨hn, hm⟩ hnone hv
  · intro found e erased key
    obtain ⟨head, next, kept, voided, index, sifted⟩ := scanEnd_cases h
    have index : e = r.rebuilt head next kept voided := index
    have readable : e.readable = kept := by rw [index]; rfl
    refine ⟨fun hf => ?_, fun x hx top => ?_, ?_, fun x hx => ?_, ?_, fun a => ?_, fun k hk => ?_,
      ?_, ?_, ?_, ?_⟩
    · have : e = r.rebuilt 0 1 [] [] := scanEnd_of_none hf
      rw [this]
      exact ⟨rfl, rfl, rfl⟩
    · intro a free
      obtain ⟨at_head, at_top, below_top⟩ := scanEnd_of_highest_seq h hx top
      obtain ⟨of_free, of_not⟩ := scanHead_of_free h x
      exact ⟨fun hf => at_head.trans (of_free hf), fun hf => at_head.trans (of_not hf), at_top, below_top⟩
    · rw [readable, show key = storeKey e.head from rfl, show e.head = head by rw [index]; rfl]
      exact sifted.rising
    · rw [readable] at hx
      exact sifted.perm.subset (List.mem_append_left _ hx)
    · rw [index]; rfl
    · rw [readable, show e.store = voidAll r.store voided by rw [index]; rfl]
      split
      · next ha =>
        obtain ⟨x, hx, hk, rfl⟩ := ha
        exact blockAt_voided h sifted ((mem_voided_iff h sifted).2 ⟨hx, hk⟩)
      · next ha =>
        refine blockAt_voidAll_of_not h (voided_addr_lt h sifted) fun x hx e => ha ⟨x, ?_⟩
        obtain ⟨hx, hk⟩ := (mem_voided_iff h sifted).1 hx
        exact ⟨hx, hk, e⟩
    · have hk := List.mem_range.1 hk
      rw [readable, index]
      split
      · next he => exact rebuilt_sector_of_erased h sifted hk he
      · next he => exact rebuilt_sector_of_not h sifted hk he
    · rw [index]
      simp [Rws.rebuilt, Config.sectorCount]
    all_goals rw [index]; rfl

end Sys2Proof.Machine
end

section
/-! PROOFS. Activity: HOLD JOB, RELEASE JOB and the two breakdown messages (R152 to R154). -/

namespace Sys2Proof.Machine

section
variable {s : State}

/-- The breakdown mark is set at the clock's second where it is clear, and kept where it is set (R153). -/
theorem ownDeclareBreakdown_of_live (h : s.bu.jobSt = .opened ∨ s.bu.jobSt = .suspended) :
    ownDeclareBreakdown s = done (s.setBu { s.bu with
      breakdown := match s.bu.breakdown with
        | none => some s.tps.clock
        | some x => some x }) := by
  have mark : ownDeclareBreakdown s =
      done (s.setBu { s.bu with breakdown := some (s.bu.breakdown.getD s.tps.clock) }) := by
    rcases h with h | h <;> (rw [ownDeclareBreakdown, h]; rfl)
  cases hb : s.bu.breakdown with
  | none => rw [mark, hb]; rfl
  | some x => rw [mark, hb]; rfl

end

/-- Settles O39: each message by the state of the job, from its owner's answer. -/
theorem holdReleaseAndBreakdownMoveTheJob : Obligations.HoldReleaseAndBreakdownMoveTheJob := by
  have refuses {dt : Nat} {tag : Byte} {r : Request} {why : Reason} {s : State} (hs : s.ready)
      (e : own r (s.heard dt) = refused why (s.heard dt)) :
      requestRow dt tag r s = (s.heard dt).answering tag r (.refuse why) := requestRow_unchanged hs e
  have writes {dt : Nat} {tag : Byte} {r : Request} {b : Bu} {s : State} (hs : s.ready)
      (e : own r (s.heard dt) = done ((s.heard dt).setBu b)) :
      requestRow dt tag r s = ((s.heard dt).setBu b).answering tag r .ok :=
    requestRow_of_own hs e (heard_reports.trans hs.2.1) (heard_free hs.2.2)
  refine ⟨fun dt tag s hs => ?_, fun dt tag s hs => ?_⟩
  · intro h
    rw [show s.bu = h.bu from heard_bu.symm]
    refine ⟨congrArg Host.Outcome.next ?_, congrArg Host.Outcome.next ?_⟩
    · have e : own .holdJob h = ownHoldJob h := rfl
      rw [ownHoldJob] at e
      cases hj : h.bu.jobSt with
      | opened => rw [hj] at e; exact writes hs e
      | noJob | suspended | closing => rw [hj] at e; exact refuses hs e
    · have e : own .releaseJob h = ownReleaseJob h := rfl
      rw [ownReleaseJob] at e
      cases hj : h.bu.jobSt with
      | suspended => rw [hj] at e; exact writes hs e
      | noJob | opened | closing => rw [hj] at e; exact refuses hs e
  · intro h
    rw [show s.bu = h.bu from heard_bu.symm, show s.tps = h.tps from heard_tps.symm]
    refine ⟨congrArg Host.Outcome.next ?_, congrArg Host.Outcome.next ?_⟩
    · cases hj : h.bu.jobSt with
      | noJob | closing =>
        have e : own .declareBreakdown h = ownDeclareBreakdown h := rfl
        rw [ownDeclareBreakdown, hj] at e
        exact refuses hs e
      | opened => exact writes hs (ownDeclareBreakdown_of_live (.inl hj))
      | suspended => exact writes hs (ownDeclareBreakdown_of_live (.inr hj))
    · by_cases hj : h.bu.jobSt = .noJob
      · rw [if_pos hj]
        exact refuses hs (if_pos hj)
      · rw [if_neg hj]
        exact writes hs (if_neg hj)

end Sys2Proof.Machine
end

section
/-! PROOFS. Activity: the category of a second, what the second joins, and the builder's part of a tick
(R112, R119, R145, R148). -/

namespace Sys2Proof.Machine

/-! ## The category in force (R145) -/

theorem loneOp_iff {r : Hs} : r.loneOp = true ↔ ∃ o, r.op = some o ∧ o.trip = false := by
  unfold Hs.loneOp
  split
  · next o ho => simp [ho]
  · next ho => simp [ho]

theorem quiet_eq_false_iff {c : Cm} :
    c.quiet = false ↔ c.pump1.st ≠ .stopped ∨ c.pump2.st ≠ .stopped := by
  simp [Cm.quiet, imp_iff_not_or]

/-- The ten conditions, in their order; the last two of a string that turns share the head's. -/
theorem decideCategory_eq (s : State) : decideCategory s =
    if s.bu.jobSt = .suspended then .held
    else if s.bu.breakdown ≠ none then .breakdown
    else if s.cm.lossLatch ≠ none ∨ s.cm.gainLatch ≠ none then .remediation
    else if s.cm.mon = .watchEntry ∨ s.cm.mon = .holeWatch then .holeWatch
    else if ∃ t ∈ s.hs.trip, t.ended = none then .tripping
    else if ∃ o ∈ s.hs.op, o.trip = false then .connection
    else if s.sfe.rotTimer ≠ none ∧ s.dib.dstate ≠ .fault ∧ s.dib.hwm ≤ s.dib.depth + 100 then .drilling
    else if s.sfe.rotTimer ≠ none ∧ s.dib.dstate ≠ .fault then .reaming
    else if s.cm.pump1.st ≠ .stopped ∨ s.cm.pump2.st ≠ .stopped then .circulating
    else .standby := by
  have turning : (s.sfe.rotating && s.dib.dstate != .fault) = true ↔
      s.sfe.rotTimer ≠ none ∧ s.dib.dstate ≠ .fault := by
    simp [Sfe.rotating, Option.isSome_iff_ne_none]
  have by_head (c : Category) :
      (if s.sfe.rotTimer ≠ none ∧ s.dib.dstate ≠ .fault then
        if s.dib.hwm ≤ s.dib.depth + Config.depthTolerance then .drilling else .reaming
      else c) =
        if s.sfe.rotTimer ≠ none ∧ s.dib.dstate ≠ .fault ∧ s.dib.hwm ≤ s.dib.depth + 100 then .drilling
        else if s.sfe.rotTimer ≠ none ∧ s.dib.dstate ≠ .fault then .reaming
        else c := by
    by_cases ht : s.sfe.rotTimer ≠ none ∧ s.dib.dstate ≠ .fault
    · by_cases hd : s.dib.hwm ≤ s.dib.depth + 100 <;> simp [ht, hd, Config.depthTolerance]
    · rw [if_neg ht, if_neg ht, if_neg fun h => ht ⟨h.1, h.2.1⟩]
  simp only [decideCategory, turning, Bool.not_eq_true', quiet_eq_false_iff, tripActive_iff, loneOp_iff,
    Option.isSome_iff_ne_none, Bool.or_eq_true, decide_eq_true_eq, by_head, Option.mem_def]

/-! ## The second at the billing unit and the builder -/

/-- The second joins both sets and the open seconds in OPEN and SUSPENDED, and only there (R148). -/
theorem classify_eq {s : State} {c : Category} (h : decideCategory s = c) :
    let more := fun l : List Nat => l.modify (c.code - 1) (fun x => min (x + 1) 4294967295)
    classify s = s.setBu (if s.bu.jobSt = .opened ∨ s.bu.jobSt = .suspended then
        { s.bu with
          category := c
          totals := { s.bu.totals with time := more s.bu.totals.time }
          since := { s.bu.since with time := more s.bu.since.time }
          openSecs := min (s.bu.openSecs + 1) 4294967295 }
      else { s.bu with category := c }) := by
  intro more
  have live : ({ s.bu with category := c } : Bu).live = true ↔
      s.bu.jobSt = .opened ∨ s.bu.jobSt = .suspended := by simp [Bu.live]
  simp only [classify, h, live]
  rfl

/-- An entry at a tick: its grace expiry may have come (R119). -/
def Entry.ticked (clock : Nat) (e : Entry) : Entry :=
  match e.st with
  | .sampleDue _ g => if g ≤ clock ∧ e.graceOver = false then { e with graceDue := true } else e
  | .awaiting => e

/-- The builder's part of a tick: the drilling second, and the grace expiries that have come (R112,
R119). -/
theorem dibTick_eq (s : State) : dibTick s = s.setDib
    { s.dib with
      openIv := if s.bu.category = .drilling then
          s.dib.openIv.map (fun v => { v with drillSecs := min (v.drillSecs + 1) 4294967295 })
        else s.dib.openIv
      queue := s.dib.queue.map (Entry.ticked s.tps.clock) } := by
  unfold dibTick
  split <;>
    refine congrArg (fun q => s.setDib { s.dib with openIv := _, queue := q })
      (List.map_congr_left fun e _ => ?_) <;>
    · unfold Entry.ticked
      cases e.st with
      | awaiting => rfl
      | sampleDue _ g =>
        refine if_congr ?_ rfl rfl
        simp only [Bool.and_eq_true, decide_eq_true_eq, Bool.not_eq_true']
        rfl

end Sys2Proof.Machine
end

section
/-! PROOFS. Activity: the pit samples counted afresh, which no latch and no request reads, and the window
timer (R21, R38). -/

namespace Sys2Proof.Machine

/-! ## Requests do not read the monitor -/

section
variable (s : State) (r : Req) (x : Cm)

theorem writeGroup_setCm (n : GroupNo) (sel pat : SwitchSet) : writeGroup n sel pat (s.setCm x) =
    ((writeGroup n sel pat s).1.setCm x, (writeGroup n sel pat s).2) := by
  cases n <;> rfl

theorem disarmGroup_setCm (n : GroupNo) : disarmGroup n (s.setCm x) = (disarmGroup n s).setCm x :=
  congrArg Prod.fst (writeGroup_setCm s x n 0 0)

theorem armGuard_setCm : armGuard (s.setCm x) = ((armGuard s).1.setCm x, (armGuard s).2) :=
  writeGroup_setCm ..

theorem guardFailed_setCm : guardFailed r (s.setCm x) = (guardFailed r s).setCm x := by
  unfold guardFailed
  rw [disarmGroup_setCm]
  rfl

theorem tryGrant_setCm : tryGrant r (s.setCm x) = ((tryGrant r s).1.setCm x, (tryGrant r s).2) := by
  have met : targetMet (s.setCm x) r = targetMet s r := rfl
  unfold tryGrant
  rw [met, armGuard_setCm]
  split
  · rfl
  · split
    · simp only []
      split
      · rw [guardFailed_setCm]
      · have locked : ((armGuard s).1.setCm x).on .indexLocked = (armGuard s).1.on .indexLocked := rfl
        rw [locked]
        split <;> rfl
    · rfl

theorem passOn_setCm (n : Nat) : passOn n (s.setCm x) = (passOn n s).setCm x := by
  induction n generalizing s with
  | zero => rfl
  | succ n ih =>
    have next : (s.setCm x).aha.nextCandidate = s.aha.nextCandidate := rfl
    unfold passOn
    rw [next]
    split
    · rfl
    · next q a _ =>
      have e : tryGrant q ((s.setCm x).setAha a) = _ := tryGrant_setCm (s.setAha a) q x
      rw [e]
      simp only []
      split
      · rfl
      · exact ih _

theorem stopHolder_setCm : stopHolder (s.setCm x) = (stopHolder s).setCm x := by
  have held : (s.setCm x).aha.holder = s.aha.holder := rfl
  unfold stopHolder
  rw [held]
  split
  · rfl
  · simp only []
    split
    · rw [disarmGroup_setCm]; rfl
    · rfl

theorem grantNow_setCm : grantNow r (s.setCm x) = (grantNow r s).setCm x := by
  unfold grantNow
  rw [tryGrant_setCm]
  simp only []
  split
  · rfl
  · exact passOn_setCm ..

theorem suspendHolder_setCm : suspendHolder r (s.setCm x) = (suspendHolder r s).setCm x := by
  unfold suspendHolder
  rw [stopHolder_setCm]
  rfl

theorem requestMotion_setCm : requestMotion r (s.setCm x) = (requestMotion r s).setCm x := by
  have stands : (s.setCm x).aha.stands r.client = s.aha.stands r.client := rfl
  have met : targetMet (s.setCm x) r = targetMet s r := rfl
  have held : (s.setCm x).aha.holder = s.aha.holder := rfl
  unfold requestMotion
  rw [stands, met, held]
  split
  · rfl
  · split
    · rfl
    · split
      · exact grantNow_setCm ..
      · split
        · rw [suspendHolder_setCm, grantNow_setCm]
        · rfl

theorem withdraw_setCm (c : Client) : withdraw c (s.setCm x) = (withdraw c s).setCm x := by
  have holds : (s.setCm x).aha.holds c = s.aha.holds c := rfl
  unfold withdraw
  rw [holds]
  split
  · rw [stopHolder_setCm, passOn_setCm]
  · rfl

end

/-! ## The samples counted afresh (R38) -/

/-- The samples of a second counted afresh. -/
def State.freshSamples (s : State) : State :=
  s.setCm { s.cm with pitSum := 0, pitCount := 0, pitBad := false }

section
variable (s : State)

theorem hsMonitor_freshSamples : hsMonitor s.freshSamples = (hsMonitor s).freshSamples := by
  have op : s.freshSamples.hs.op = s.hs.op := rfl
  have seq : s.freshSamples.hs.seq = s.hs.seq := rfl
  have met (o : OpRec) : conditionMet o s.freshSamples = conditionMet o s := rfl
  unfold hsMonitor hsTest
  simp only [op, seq, met]
  cases s.hs.op with
  | none => rfl
  | some o =>
    simp only []
    split
    · split <;> rfl
    · rfl

theorem requestMotion_freshSamples (r : Req) :
    requestMotion r s.freshSamples = (requestMotion r s).freshSamples := by
  rw [State.freshSamples, State.freshSamples, requestMotion_setCm, requestMotion_cm]

theorem withdraw_freshSamples (c : Client) :
    withdraw c s.freshSamples = (withdraw c s).freshSamples := by
  rw [State.freshSamples, State.freshSamples, withdraw_setCm, withdraw_cm]

theorem autoDivert_freshSamples : autoDivert s.freshSamples = (autoDivert s).freshSamples := by
  have asked {r : Req} : requestMotion r (setDivert .requested s.freshSamples) =
      (requestMotion r (setDivert .requested s)).freshSamples :=
    requestMotion_freshSamples (setDivert .requested s) r
  have withdrawn : withdraw .wellControl (setDivert .requested s.freshSamples) =
      (withdraw .wellControl (setDivert .requested s)).freshSamples :=
    withdraw_freshSamples (setDivert .requested s) .wellControl
  by_cases hp : s.pAutoDivert = true
  · cases hw : s.aha.wellReq with
    | none =>
      rw [autoDivert_of_none hw, autoDivert_of_none (u := s.freshSamples) hw, if_pos hp]
      exact (if_pos hp).trans asked
    | some q =>
      cases hd : q.dir with
      | second =>
        rw [autoDivert_of_close hw hp hd, autoDivert_of_close (u := s.freshSamples) hw hp hd]
        rfl
      | first =>
        rw [autoDivert_of_open hw hp hd, autoDivert_of_open (u := s.freshSamples) hw hp hd, withdrawn]
        split
        · exact requestMotion_freshSamples
            ((withdraw .wellControl (setDivert .requested s)).raise _) _
        · exact requestMotion_freshSamples _ _
  · cases hw : s.aha.wellReq with
    | none =>
      rw [autoDivert_of_none hw, autoDivert_of_none (u := s.freshSamples) hw, if_neg hp]
      exact if_neg hp
    | some q =>
      have hp : s.pAutoDivert = false := Bool.eq_false_iff.2 hp
      rw [autoDivert_of_off hw hp, autoDivert_of_off (u := s.freshSamples) hw hp]
      split <;> rfl

theorem setLatch_freshSamples (l : LatchName) (src : LatchSrc) (figure : Int) :
    setLatch l src figure s.freshSamples = (setLatch l src figure s).freshSamples := by
  cases l with
  | loss =>
    by_cases hc : s.cm.lossLatch = none
    · rw [setLatch_loss_of_clear hc, setLatch_loss_of_clear (s := s.freshSamples) hc,
        ← hsMonitor_freshSamples]
      rfl
    · rw [setLatch_loss_of_set hc, setLatch_loss_of_set (s := s.freshSamples) hc]
  | gain =>
    by_cases hc : s.cm.gainLatch = none
    · rw [setLatch_gain_of_clear hc, setLatch_gain_of_clear (s := s.freshSamples) hc,
        ← hsMonitor_freshSamples, ← autoDivert_freshSamples]
      rfl
    · rw [setLatch_gain_of_set hc, setLatch_gain_of_set (s := s.freshSamples) hc]

end

/-! ## Idle flow, drift and the window timer (R21, R33, R38) -/

/-- What no latch that is set changes of the monitor. -/
def Cm.unlatched (c : Cm) : Cm :=
  { c with lossLatch := none, gainLatch := none, lossClr := 0, gainClr := 0, divert := .noDivert }

theorem autoDivert_unlatched (s : State) : (autoDivert s).cm.unlatched = s.cm.unlatched := by
  have told {c : Prop} [Decidable c] {t : State} {d : Detail} :
      (if c then t.raise d else t).cm = t.cm := by split <;> rfl
  fun_cases autoDivert s <;> simp +zetaDelta [setDivert, told, Cm.unlatched]

theorem setLatch_unlatched (l : LatchName) (src : LatchSrc) (figure : Int) (s : State) :
    (setLatch l src figure s).cm.unlatched = s.cm.unlatched := by
  fun_cases setLatch l src figure s with
  | case1 | case3 => rfl
  | case2 => rw [hsMonitor_cm]; rfl
  | case4 => rw [hsMonitor_cm, autoDivert_unlatched]; rfl

/-- The window that a tick opens, or the one in progress with a second less (R21). -/
def State.windowTicked (s : State) : Option Window :=
  match s.cm.win with
  | none => some ⟨s.force, s.force.w, 0, false, 0, false, 0, 0⟩
  | some w => some { w with left := w.left - 1 }

theorem windowTick_eq (s : State) : windowTick s = s.setCm { s.cm with win := s.windowTicked } := by
  cases h : s.cm.win with
  | none => simp only [windowTick, State.windowTicked, h]; rfl
  | some w => simp only [windowTick, State.windowTicked, h]

theorem windowTicked_congr {s t : State} (hw : t.cm.win = s.cm.win) (hp : t.params = s.params) :
    t.windowTicked = s.windowTicked := by
  have hf : t.force = s.force := by simp [State.force, State.paramNat, State.param, hp]
  simp only [State.windowTicked, hw, hf]

/-- The end of a tick, in a state that has the window and the parameters of another. -/
theorem windowTick_freshSamples {s t : State} (hw : t.cm.win = s.cm.win) (hp : t.params = s.params) :
    windowTick t.freshSamples = t.setCm
      { t.cm with pitSum := 0, pitCount := 0, pitBad := false, win := s.windowTicked } := by
  rw [windowTick_eq, windowTicked_congr (s := s) (t := t.freshSamples) hw hp]
  rfl

section
variable {s : State}

theorem idleFlow_of_other (h1 : s.cm.mon ≠ .idle) (h2 : s.cm.mon ≠ .holeWatch) : idleFlow s = s :=
  if_neg (by simp [h1, h2])

/-- The second's return volume joins the span, and a span above the allowance sets the latch (R33). -/
theorem idleFlow_of_watched (h : s.cm.mon = .idle ∨ s.cm.mon = .holeWatch) :
    let span := (s.cm.secPulses * s.inForce.k :: s.cm.span).take s.pFlowPeriod
    let t := s.setCm { s.cm with span := span, secPulses := 0 }
    idleFlow s = if s.pFlowAllowance < span.sum then setLatch .gain .idleFlow span.sum t else t :=
  if_pos (by simpa using h)

/-- What the idle flow watch leaves of the monitor. -/
def Cm.unspanned (c : Cm) : Cm := { c.unlatched with span := [], secPulses := 0 }

theorem idleFlow_unspanned (s : State) : (idleFlow s).cm.unspanned = s.cm.unspanned := by
  have set {l : LatchName} {src : LatchSrc} {figure : Int} {t : State} :
      (setLatch l src figure t).cm.unspanned = t.cm.unspanned :=
    congrArg (fun c : Cm => { c with span := [], secPulses := 0 }) (setLatch_unlatched l src figure t)
  fun_cases idleFlow s with
  | case1 => exact set.trans rfl
  | case2 | case3 => rfl

/-- The drift step of a difference, by the bands that it has passed (R38). -/
theorem driftStep_eq {diff band k : Int} (hb : 0 < band)
    (h : (-band ≤ diff ∧ diff ≤ band ∧ k = 0)
      ∨ (band < diff ∧ k * band < diff ∧ diff ≤ (k + 1) * band)
      ∨ (diff < -band ∧ -k * band < -diff ∧ -diff ≤ (-k + 1) * band)) : driftStep diff band = k := by
  have steps {n x : Int} (h1 : n * band < x) (h2 : x ≤ (n + 1) * band) : (x - 1) / band = n :=
    (Int.ediv_eq_iff_of_pos hb).2 ⟨by omega, by rw [add_one_mul] at h2; omega⟩
  unfold driftStep
  rcases h with ⟨h1, h2, rfl⟩ | ⟨h0, h1, h2⟩ | ⟨h0, h1, h2⟩
  · rw [if_neg (by omega), if_neg (by omega)]
  · rw [if_pos h0, steps h1 h2]
  · rw [if_neg (by omega), if_pos h0, steps h1 h2, neg_neg]

/-! A step beyond the highest or the lowest so far, or within them (R38, R39). -/

section
variable {level : Nat} {ref k : Int} (h : driftStep ((level : Int) - ref) s.pDriftBand = k)
include h

theorem driftCheck_of_within (h1 : s.cm.loStep ≤ k) (h2 : k ≤ s.cm.hiStep) :
    driftCheck level ref s = s := by
  rw [driftCheck, h]
  exact (if_neg (by omega)).trans (if_neg (by omega))

theorem driftCheck_of_above (h1 : s.cm.hiStep < k) : driftCheck level ref s =
    setLatch .gain .drift level
      ((s.setCm { s.cm with hiStep := k }).raise (.driftStep true level ref k)) := by
  rw [driftCheck, h]
  exact if_pos h1

theorem driftCheck_of_below (h1 : k ≤ s.cm.hiStep) (h2 : k < s.cm.loStep) : driftCheck level ref s =
    setLatch .loss .drift level
      ((s.setCm { s.cm with loStep := k }).raise (.driftStep false level ref k)) := by
  rw [driftCheck, h]
  exact (if_neg (by omega)).trans (if_pos h2)

end

theorem driftCheck_freshSamples (level : Nat) (ref : Int) (s : State) :
    driftCheck level ref s.freshSamples = (driftCheck level ref s).freshSamples := by
  by_cases h1 : s.cm.hiStep < driftStep ((level : Int) - ref) s.pDriftBand
  · rw [driftCheck_of_above rfl h1, driftCheck_of_above (s := s.freshSamples) rfl h1,
      ← setLatch_freshSamples]
    rfl
  · by_cases h2 : driftStep ((level : Int) - ref) s.pDriftBand < s.cm.loStep
    · rw [driftCheck_of_below rfl (Int.not_lt.1 h1) h2,
        driftCheck_of_below (s := s.freshSamples) rfl (Int.not_lt.1 h1) h2, ← setLatch_freshSamples]
      rfl
    · rw [driftCheck_of_within rfl (Int.not_lt.1 h2) (Int.not_lt.1 h1),
        driftCheck_of_within (s := s.freshSamples) rfl (Int.not_lt.1 h2) (Int.not_lt.1 h1)]

theorem driftCheck_win (level : Nat) (ref : Int) (s : State) :
    (driftCheck level ref s).cm.win = s.cm.win := by
  have set {l : LatchName} {src : LatchSrc} {figure : Int} {t : State} :
      (setLatch l src figure t).cm.win = t.cm.win :=
    (congrArg Cm.win (setLatch_unlatched l src figure t) :)
  fun_cases driftCheck level ref s with
  | case1 | case2 => exact set.trans rfl
  | case3 => rfl

/-- With no mean level to test, the samples are counted afresh. -/
theorem driftTick_of_none (h : s.cm.mon ≠ .holeWatch ∨ s.cm.ref = none ∨ s.cm.pitCount = 0
    ∨ s.cm.pitBad = true) : driftTick s = s.freshSamples := by
  unfold driftTick
  simp only []
  split
  · next ref hm hr =>
    refine if_pos ?_
    rcases h with h | h | h | h
    · exact absurd hm h
    · exact absurd (hr.symm.trans h) (by simp)
    · simp [h]
    · simp [h]
  · rfl

/-- The mean level is tested, and the samples are counted afresh (R38). -/
theorem driftTick_of_mean {ref : Int} (hm : s.cm.mon = .holeWatch) (hr : s.cm.ref = some ref)
    (hc : s.cm.pitCount ≠ 0) (hb : s.cm.pitBad = false) :
    driftTick s = (driftCheck (s.cm.pitSum / s.cm.pitCount) ref s).freshSamples := by
  rw [← driftCheck_freshSamples]
  unfold driftTick
  simp only []
  split
  · next x _ hx =>
    obtain rfl : x = ref := Option.some.inj (hx.symm.trans hr)
    exact if_neg (by simp [hc, hb])
  · next hn => exact absurd hr (hn ref hm)

end

end Sys2Proof.Machine
end

section
/-! PROOFS. Activity: a second tick, delivered and not (R148, R191). -/

namespace Sys2Proof.Machine

@[simp] theorem lcService_bu (s : State) : (lcService s).bu = s.bu := by
  fun_cases lcService s <;> rfl

@[simp] theorem lcService_tps (s : State) : (lcService s).tps = s.tps := by
  fun_cases lcService s <;> rfl

@[simp] theorem elapse_cm_pitBad (dt : Nat) (s : State) : (s.elapse dt).cm.pitBad = s.cm.pitBad := by
  unfold State.elapse; split <;> rfl
@[simp] theorem elapse_cm_hiStep (dt : Nat) (s : State) : (s.elapse dt).cm.hiStep = s.cm.hiStep := by
  unfold State.elapse; split <;> rfl
@[simp] theorem elapse_cm_loStep (dt : Nat) (s : State) : (s.elapse dt).cm.loStep = s.cm.loStep := by
  unfold State.elapse; split <;> rfl
@[simp] theorem elapse_cm_pump_st (dt : Nat) (s : State) (p : Pump) :
    ((s.elapse dt).cm.pump p).st = (s.cm.pump p).st := by
  unfold State.elapse; split <;> cases p <;> rfl

@[simp] theorem elapse_pFlowPeriod (dt : Nat) (s : State) :
    (s.elapse dt).pFlowPeriod = s.pFlowPeriod := by simp [State.pFlowPeriod, State.paramNat, State.param]
@[simp] theorem elapse_pDriftBand (dt : Nat) (s : State) :
    (s.elapse dt).pDriftBand = s.pDriftBand := by simp [State.pDriftBand, State.param]

/-! ## The tick, by the phase (R191) -/

section
variable {s : State} {dt : Nat}

theorem secondTick_of_off (h : s.tps.phase = .off) : exec (.secondTick dt) s = .next (clockOn s) :=
  congrArg Host.Outcome.next (if_pos h)

/-- No tick is delivered before start-up has ended. -/
theorem secondTick_of_startUp (h : s.tps.phase = .startUp) (hr : s.reports = []) :
    let u := clockOn (s.elapse dt)
    exec (.secondTick dt) s = .next (lcService (u.setCm { u.cm with secPulses := 0 })) := by
  intro u
  have early : (clockOn (s.elapse dt)).tps.phase ≠ .running := by
    show (s.elapse dt).tps.phase ≠ .running
    rw [State.elapse_tps, h]
    decide
  have e : takeSecond (s.elapse dt) = u.setCm { u.cm with secPulses := 0 } := if_neg early
  exact (congrArg _ (if_neg (by simp [h]))).trans
    (next_of_quiet ⟨by simp [h], hr⟩ e (State.elapse_reports dt s))

theorem secondTick_of_running (h : s.tps.phase = .running) (hr : s.reports = []) :
    exec (.secondTick dt) s = .next (finish (windowTick (driftTick (idleFlow
      (dibTick (classify (clockOn (s.elapse dt)))))))) := by
  have late : (clockOn (s.elapse dt)).tps.phase = .running := by
    show (s.elapse dt).tps.phase = .running
    rw [State.elapse_tps, h]
  have e : takeSecond (s.elapse dt) = deliverTick (clockOn (s.elapse dt)) := if_pos late
  exact (congrArg _ (if_neg (by simp [h]))).trans (next_of_finish ⟨by simp [h], hr⟩ e)

end

/-- Settles O52: the tick by the phase; delivered, by the monitor's state, and in HOLE WATCH by the drift
step. -/
theorem secondTicksClassifyAndAccrue : Obligations.SecondTicksClassifyAndAccrue := by
  intro dt s h c
  rw [show s.bu = h.bu by simp [h], show s.dib = h.dib by simp [h],
    show s.cm.lossLatch = h.cm.lossLatch by simp [h], show s.cm.gainLatch = h.cm.gainLatch by simp [h],
    show s.cm.mon = h.cm.mon by simp [h], show s.hs.trip = h.hs.trip by simp [h],
    show s.hs.op = h.hs.op by simp [h], show s.cm.ref = h.cm.ref by simp [h],
    show s.cm.pitSum = h.cm.pitSum by simp [h], show s.cm.pitCount = h.cm.pitCount by simp [h],
    show s.cm.pitBad = h.cm.pitBad by simp [h], show s.cm.hiStep = h.cm.hiStep by simp [h],
    show s.cm.loStep = h.cm.loStep by simp [h], show s.cm.span = h.cm.span by simp [h],
    show s.cm.secPulses = h.cm.secPulses by simp [h], show s.pFlowPeriod = h.pFlowPeriod by simp [h],
    show s.pFlowAllowance = h.pFlowAllowance by simp [h],
    show s.pDriftBand = h.pDriftBand by simp [h],
    show s.cm.pump1.st = h.cm.pump1.st from (elapse_cm_pump_st dt s .one).symm,
    show s.cm.pump2.st = h.cm.pump2.st from (elapse_cm_pump_st dt s .two).symm]
  intro clock late cat more live b
  have tps : h.tps = s.tps := State.elapse_tps dt s
  have par : h.params = s.params := State.elapse_params dt s
  have win : h.cm.win = s.cm.win := State.elapse_cm_win dt s
  have rep : h.reports = s.reports := State.elapse_reports dt s
  have elapsed : s.elapse dt = h := rfl
  clear_value h
  have advanced : clockOn h = late := by rw [clockOn, tps]
  have in_force : b.category = cat := by
    show (if live then _ else _ : Bu).category = cat
    split <;> rfl
  let T := (late.setBu b).setDib
    { h.dib with
      openIv := if cat = .drilling then
          h.dib.openIv.map (fun v => { v with drillSecs := min (v.drillSecs + 1) 4294967295 })
        else h.dib.openIv
      queue := h.dib.queue.map (Entry.ticked clock) }
  have told : dibTick (classify late) = T := by
    have e : classify late = late.setBu b := classify_eq (decideCategory_eq late)
    rw [e, dibTick_eq, State.setBu_bu, in_force]
    rfl
  have delivered (hp : s.tps.phase = .running) (hr : s.reports = []) :
      c = .next (finish (windowTick (driftTick (idleFlow T)))) :=
    (secondTick_of_running hp hr).trans (by rw [elapsed, advanced, told])
  refine ⟨secondTick_of_off, fun hp hr => ?_, fun hp hr => ?_,
    fun hp hr h1 h2 => ?_, fun u src x => ⟨setLatch_gain_of_set, setLatch_gain_of_clear,
      setLatch_loss_of_set, setLatch_loss_of_clear⟩, fun hp hr hm => ?_⟩
  · -- Before start-up has ended.
    have e : c = _ := secondTick_of_startUp hp hr
    rw [e, elapsed, advanced]
    rfl
  · -- Delivered, whatever the monitor's state.
    have k : Keeps T (settle (windowTick (driftTick (idleFlow T)))) :=
      settle_keeps (windowTick_keeps (driftTick_keeps (idleFlow_keeps (.refl T))))
    refine ⟨_, delivered hp hr, (lcService_tps _).trans k.tps, ?_⟩
    rw [finish, lcService_bu]
    exact ⟨(congrArg Hours.category k.hours).trans in_force, congrArg Hours.time k.hours,
      congrArg Hours.sinceTime k.hours, congrArg Hours.openSecs k.hours⟩
  · -- The monitor watches no idle flow.
    have e : driftTick (idleFlow T) = T.freshSamples := by
      rw [idleFlow_of_other (s := T) h1 h2, driftTick_of_none (s := T) (.inl h2)]
    rw [delivered hp hr, e, windowTick_freshSamples (s := s) (t := T) win par]
    exact congrArg _ (finish_of_nil (rep.trans hr))
  · intro span t flow goesOn
    have watched : idleFlow T = flow := idleFlow_of_watched (s := T) hm
    have flow_params : flow.params = s.params := watched ▸ (idleFlow_keeps (.refl T)).params.trans par
    have rest : flow.cm.unspanned = h.cm.unspanned := watched ▸ idleFlow_unspanned T
    clear_value flow
    have flow_win : flow.cm.win = s.cm.win := (congrArg Cm.win rest :).trans win
    have goes {v : State} (e : driftTick flow = v.freshSamples) (hw : v.cm.win = flow.cm.win)
        (hv : v.params = flow.params) : goesOn v := by
      show c = _
      rw [delivered hp hr, watched, e,
        windowTick_freshSamples (s := s) (hw.trans flow_win) (hv.trans flow_params)]
      rfl
    have flow_mon : flow.cm.mon = h.cm.mon := (congrArg Cm.mon rest :)
    have flow_ref : flow.cm.ref = h.cm.ref := (congrArg Cm.ref rest :)
    have flow_sum : flow.cm.pitSum = h.cm.pitSum := (congrArg Cm.pitSum rest :)
    have flow_count : flow.cm.pitCount = h.cm.pitCount := (congrArg Cm.pitCount rest :)
    have flow_bad : flow.cm.pitBad = h.cm.pitBad := (congrArg Cm.pitBad rest :)
    have flow_hi : flow.cm.hiStep = h.cm.hiStep := (congrArg Cm.hiStep rest :)
    have flow_lo : flow.cm.loStep = h.cm.loStep := (congrArg Cm.loStep rest :)
    rw [← flow_mon, ← flow_ref, ← flow_sum, ← flow_count, ← flow_bad, ← flow_hi, ← flow_lo]
    refine ⟨fun hn => goes (driftTick_of_none (hn.imp_left fun hi => by simp [hi])) rfl rfl,
      fun ref k hw href hcount hbad hb => ?_⟩
    intro level diff band hk
    have step : driftStep ((level : Int) - ref) flow.pDriftBand = k := by
      rw [show flow.pDriftBand = h.pDriftBand by
        simp only [State.pDriftBand, State.param, flow_params, par]]
      exact driftStep_eq hb hk
    have mean : goesOn (driftCheck level ref flow) :=
      goes (driftTick_of_mean hw href hcount hbad) (driftCheck_win level ref flow)
        (driftCheck_keeps (.refl flow)).params
    exact ⟨fun h1 h2 => driftCheck_of_within step h1 h2 ▸ mean,
      fun h1 => driftCheck_of_above step h1 ▸ mean,
      fun h1 h2 => driftCheck_of_below step h1 h2 ▸ mean⟩

end Sys2Proof.Machine
end

section
/-! PROOFS. Tariffs: WRITE TARIFF, and the settings that no event of the rig changes (R160, R186, R188). -/

namespace Sys2Proof.Machine

/-! ## The checks of a tariff (R160) -/

theorem rising_iff {l : List Nat} : rising l = true ↔ l.Pairwise (· < ·) := by
  rw [← List.isChain_iff_pairwise]
  induction l using rising.induct with
  | case1 | case2 => simp [rising]
  | case3 a b rest ih => simp [rising, ih]

theorem bandsValid_iff {t : Tariff} : bandsValid t = true ↔
    1 ≤ t.bands.length ∧ t.bands.length ≤ 8 ∧ (t.bands.map Prod.fst).head? = some 0
      ∧ (t.bands.map Prod.fst).Pairwise (· < ·) := by
  simp only [bandsValid, Bool.and_eq_true, decide_eq_true_eq, beq_iff_eq, rising_iff, and_assoc]

theorem figuresValid_iff {t : Tariff} : figuresValid t = true ↔
    (∀ b ∈ t.bands, b.1 ≤ 1000000 ∧ b.2 ≤ 10000000) ∧ (∀ x ∈ t.rates, x ≤ 10000000)
      ∧ (∀ x ∈ t.items, x.price ≤ 10000000) := by
  simp only [figuresValid, Bool.and_eq_true, List.all_eq_true, decide_eq_true_eq, and_assoc]
  rfl

theorem inUse_iff {b : Bu} {id : Nat} :
    b.inUse id = true ↔ b.jobSt ≠ .noJob ∧ ∃ j, b.job = some j ∧ j.tariff = id := by
  cases hj : b.job <;> simp [Bu.inUse, hj]

/-! ## WRITE TARIFF (R160) -/

section
variable {s : State} {t : Tariff}

theorem ownWriteTariff_of_id (h : t.id < 1 ∨ 4 < t.id) : ownWriteTariff t s = refused .range s := if_pos h

theorem ownWriteTariff_of_inUse (h : ¬(t.id < 1 ∨ 4 < t.id)) (hu : s.bu.inUse t.id = true) :
    ownWriteTariff t s = refused .tariffInUse s := (if_neg h).trans (if_pos hu)

theorem ownWriteTariff_of_free (h : ¬(t.id < 1 ∨ 4 < t.id)) (hu : ¬s.bu.inUse t.id = true) :
    ownWriteTariff t s =
      if bandsValid t && figuresValid t then
        done (s.setBu { s.bu with tariffs := s.bu.tariffs.set (t.id - 1) (some t) })
      else refused .range s := (if_neg h).trans (if_neg hu)

end

/-- Settles O37: the refusals in order, and the place that a tariff which passes takes. -/
theorem writeTariffReplacesAPlace : Obligations.WriteTariffReplacesAPlace := by
  intro dt tag w s hs h
  rw [show s.bu = h.bu from heard_bu.symm]
  intro c refuse t inUse good
  have same {why : Reason} (e : ownWriteTariff t h = refused why h) : refuse why :=
    congrArg _ (requestRow_unchanged hs e)
  refine ⟨fun hi => same (ownWriteTariff_of_id hi), fun h1 h4 => ?_⟩
  have place : ¬(t.id < 1 ∨ 4 < t.id) := by omega
  have used : h.bu.inUse t.id = true ↔ inUse := inUse_iff
  have valid : (bandsValid t && figuresValid t) = true ↔ good := by
    rw [Bool.and_eq_true, bandsValid_iff, figuresValid_iff]
    simp only [and_assoc, good]
  refine ⟨fun hu => same (ownWriteTariff_of_inUse place (used.2 hu)), fun hu hg => ?_, fun hu hg => ?_⟩
  · exact same ((ownWriteTariff_of_free place (hu ∘ used.1)).trans (if_neg (hg ∘ valid.1)))
  · have e := (ownWriteTariff_of_free (s := h) place (hu ∘ used.1)).trans (if_pos (valid.2 hg))
    exact congrArg _ (requestRow_of_own hs e (heard_reports.trans hs.2.1) (heard_free hs.2.2))

/-! ## What no event of the rig, the timers or the store changes (R160, R186, R188) -/

section
variable {s : State} {dt : Nat} {f : State → State} (hf : ∀ u, Stays u (f u))

theorem elapse_stays (dt : Nat) (s : State) : Stays s (s.elapse dt) :=
  ⟨by simp, by simp, by simp, by simp, elapse_forms.store,
    fun h => State.elapse_ahaOk h, elapse_forms.tables⟩

include hf

theorem event_stays : Stays s (event dt f s) := by
  by_cases h : s.tps.phase = .off
  · rw [event, whenOn, if_pos h]
    exact .refl s
  · rw [event_of_on h]
    exact finish_stays ((elapse_stays dt s).trans (hf _))

/-- One that acts only when it is due (log 9). -/
theorem dueEvent_stays {p : State → Prop} [DecidablePred p] :
    Stays s (event dt (fun u => if p u then f u else u) s) :=
  event_stays fun u => (hf u).ite (.refl u)

end

/-- Each event of the rig, the timers or the store by what it does. -/
theorem exec_stays_of_rig {c : Instr} (h : c.ofRig = true) (s : State) :
    ∃ t, exec c s = .next t ∧ Stays s t := by
  cases c with
  | switchRawChange =>
    refine ⟨_, rfl, .ite ((Stays.refl s).setSfe rfl) (event_stays fun u => ?_)⟩
    exact ⟨rfl, rfl, rfl, rfl, id, id, (rawChange_forms u).tables⟩
  | switchChangeTaken => exact ⟨_, rfl, dueEvent_stays fun u => takeChange_stays (.refl u)⟩
  | acquisitionEnd => exact ⟨_, rfl, dueEvent_stays fun u => acquisitionOver_stays (.refl u)⟩
  | strokePulse => exact ⟨_, rfl, event_stays fun u => takeStroke_stays (.refl u)⟩
  | returnMeterPulse => exact ⟨_, rfl, event_stays fun u => takeReturn_stays (.refl u)⟩
  | rotationPulse => exact ⟨_, rfl, event_stays fun u => takeRotation_stays (.refl u)⟩
  | headEncoderStep => exact ⟨_, rfl, event_stays fun u => takeEncoder_stays (.refl u)⟩
  | rotatingIndicationExpiry =>
    exact ⟨_, rfl, event_stays fun u => .ite ((Stays.refl u).setSfe rfl) (.refl u)⟩
  | analogueSample => exact ⟨_, rfl, dueEvent_stays fun u => takeSample_stays (.refl u)⟩
  | pumpGapTimerExpiry => exact ⟨_, rfl, dueEvent_stays fun u => (cmPumpStopped_keeps (.refl u)).stays⟩
  | secondTick =>
    exact ⟨_, rfl, .ite (clockOn_stays (.refl s)) (event_stays fun u => takeSecond_stays (.refl u))⟩
  | windowClose => exact ⟨_, rfl, dueEvent_stays fun u => (closeWindow_keeps (.refl u)).stays⟩
  | flowCheckTimerExpiry => exact ⟨_, rfl, dueEvent_stays fun u => passCheck_stays (.refl u)⟩
  | captureTimerExpiry => exact ⟨_, rfl, dueEvent_stays fun u => (endCapture_keeps (.refl u)).stays⟩
  | motionTimeout => exact ⟨_, rfl, event_stays fun u => (ahaTimeout_keeps (.refl u)).stays⟩
  | stallTimerExpiry => exact ⟨_, rfl, dueEvent_stays fun u => stallOver_stays (.refl u)⟩
  | graceExpiry => exact ⟨_, rfl, event_stays fun u => graceOver_stays (.refl u)⟩
  | eraseComplete =>
    refine ⟨_, rfl, event_stays fun u => ?_⟩
    split
    · exact eraseOver_stays (.refl u)
    · exact .refl u
  | blockProgramComplete => exact ⟨_, rfl, dueEvent_stays fun u => blockOver_stays (.refl u)⟩
  | voidComplete =>
    refine ⟨_, rfl, event_stays fun u => ?_⟩
    split
    · exact .ite (voidOver_stays (.refl u)) (.refl u)
    · exact .refl u
  | verifyBlockRead => exact ⟨_, rfl, dueEvent_stays fun u => verifyOver_stays (.refl u)⟩
  | coldStartScanEnd => exact ⟨_, rfl, dueEvent_stays fun u => scanOver_stays (.refl u)⟩
  | _ => cases h

/-- Settles O7: what such an event leaves, the settings are among. -/
theorem rigEventsLeaveSettingsAlone : Obligations.RigEventsLeaveSettingsAlone := by
  intro c s t hc e
  obtain ⟨u, hu, k⟩ := exec_stays_of_rig hc s
  cases hu.symm.trans e
  exact ⟨k.params, k.tariffs, k.mask⟩

end Sys2Proof.Machine
end

section
/-! PROOFS. Tickets: the lines of a ticket and what it bills, the outbox's hand-over, ISSUE TICKET and COLLECT
TICKET (R165 to R169, R171, R174). -/

namespace Sys2Proof.Machine

/-! ## The lines of a ticket (R167, R168) -/

/-- A line stands on a ticket where its quantity is not 0 (R167). -/
def Line.kept (l : Line) : Option Line := if l.qty = 0 then none else some l

theorem filter_eq_filterMap_kept (l : List Line) :
    l.filter (fun l => l.qty != 0) = l.filterMap Line.kept := by
  rw [← List.filterMap_eq_filter]
  refine List.filterMap_congr fun x _ => ?_
  by_cases h : x.qty = 0 <;> simp [Line.kept, Option.guard, h]

theorem mkLine_kept (what : LineOf) (qty rate round unit : Nat) :
    (mkLine what qty rate round unit).kept =
      if qty = 0 then none
      else some ⟨what, qty, rate, min 99999999999 ((qty * rate + round) / unit)⟩ := by
  rw [Nat.min_comm]
  rfl

/-- The places of a list, in order, hold the list. -/
theorem filterMap_getElem?_range {α : Type} (l : List α) (n : Nat) :
    (List.range n).filterMap (fun i => l[i]?) = l.take n := by
  induction n with
  | zero => rfl
  | succ n ih =>
    rw [List.range_succ, List.filterMap_append, ih, List.take_add_one]
    cases h : l[n]? <;> simp [h]

theorem filterMap_eq_filterMap_range {α β : Type} (f : α → Option β) {l : List α} {n : Nat}
    (h : l.length ≤ n) : l.filterMap f = (List.range n).filterMap (fun i => l[i]?.bind f) := by
  rw [← List.filterMap_filterMap, filterMap_getElem?_range, List.take_of_length_le h]

section
variable (t : Tariff) (a : Accum)

/-- The bands' lines, the categories' and the items', those of quantity 0 among them. -/
def bandLines : List Line :=
  (t.bands.zip a.footage).mapIdx (fun i x => mkLine (.band (i + 1) x.1.1) x.2 x.1.2 500 1000)

@[inherit_doc bandLines]
def categoryLines : List Line :=
  (allCategories.zip (a.time.zip t.rates)).map (fun x => mkLine (.time x.1) x.2.1 x.2.2 1800 3600)

@[inherit_doc bandLines]
def itemLines : List Line :=
  (allItems.filterMap t.item).map
    (fun i => mkLine (.item i.code i.unit) (a.mats.getD (i.code - 1) 0) i.price 5 10)

theorem ticketLines_eq : ticketLines t a =
    (bandLines t a).filterMap Line.kept ++ (categoryLines t a).filterMap Line.kept
      ++ (itemLines t a).filterMap Line.kept := by
  rw [← List.filterMap_append, ← List.filterMap_append, ← filter_eq_filterMap_kept]
  rfl

theorem bandLines_kept : (bandLines t a).filterMap Line.kept =
    (List.range t.bands.length).filterMap (fun i =>
      match t.bands[i]?, a.footage[i]? with
      | some b, some q => if q = 0 then none else
          some ⟨.band (i + 1) b.1, q, b.2, min 99999999999 ((q * b.2 + 500) / 1000)⟩
      | _, _ => none) := by
  rw [filterMap_eq_filterMap_range _ (n := t.bands.length) (by simp [bandLines])]
  refine List.filterMap_congr fun i _ => ?_
  rw [bandLines, List.getElem?_mapIdx, List.zip, List.getElem?_zipWith]
  cases t.bands[i]? with
  | none => rfl
  | some b =>
    cases a.footage[i]? with
    | none => rfl
    | some q => exact mkLine_kept ..

/-- The categories stand in the order of their codes (R159). -/
theorem code_of_allCategories : ∀ i < 10, ∃ c, allCategories[i]? = some c ∧ c.code - 1 = i := by
  decide

theorem categoryLines_kept : (categoryLines t a).filterMap Line.kept =
    allCategories.filterMap (fun c =>
      match t.rates[c.code - 1]?, a.time[c.code - 1]? with
      | some rate, some q => if q = 0 then none else
          some ⟨.time c, q, rate, min 99999999999 ((q * rate + 1800) / 3600)⟩
      | _, _ => none) := by
  rw [filterMap_eq_filterMap_range _ (n := 10) (by simp [categoryLines, allCategories]),
    filterMap_eq_filterMap_range (l := allCategories) _ (n := 10) (by simp [allCategories])]
  refine List.filterMap_congr fun i hi => ?_
  obtain ⟨c, hc, hcode⟩ := code_of_allCategories i (List.mem_range.1 hi)
  rw [categoryLines, List.getElem?_map, List.zip, List.getElem?_zipWith, hc, List.zip, List.getElem?_zipWith,
    Option.bind_some, hcode]
  cases t.rates[i]? with
  | none => cases a.time[i]? <;> rfl
  | some rate =>
    cases a.time[i]? with
    | none => rfl
    | some q => exact mkLine_kept ..

theorem itemLines_kept : (itemLines t a).filterMap Line.kept =
    (List.range 16).filterMap (fun n =>
      match t.items.find? (fun x => x.code == n + 1) with
      | some x =>
        let q := a.mats.getD n 0
        if q = 0 then none else
          some ⟨.item (n + 1) x.unit, q, x.price, min 99999999999 ((q * x.price + 5) / 10)⟩
      | none => none) := by
  rw [itemLines, List.filterMap_map, List.filterMap_filterMap,
    show allItems = (List.range 16).map (· + 1) from rfl, List.filterMap_map]
  refine List.filterMap_congr fun n _ => ?_
  show (t.items.find? (fun x => x.code == n + 1)).bind _ = _
  cases h : t.items.find? (fun x => x.code == n + 1) with
  | none => rfl
  | some x =>
    have hx : x.code = n + 1 := by simpa using List.find?_some h
    simp only [Option.bind_some, Function.comp, mkLine_kept, hx, Nat.add_sub_cancel]

end

/-! ## The charges (R168) -/

/-- A line's charge before it is held (R168). -/
def Line.due (l : Line) : Nat :=
  match l.what with
  | .band _ _ => (l.qty * l.rate + 500) / 1000
  | .time _ => (l.qty * l.rate + 1800) / 3600
  | .item _ _ => (l.qty * l.rate + 5) / 10

theorem held_iff {l : Line} : l.held = true ↔ 99999999999 < l.due := by
  obtain ⟨what, qty, rate, charge⟩ := l
  cases what <;> exact decide_eq_true_iff

/-- Each line of a ticket has a quantity, and its charge is what is due, held at the top. -/
theorem charge_of_mem_ticketLines {t : Tariff} {a : Accum} {l : Line} (h : l ∈ ticketLines t a) :
    l.qty ≠ 0 ∧ l.charge = min 99999999999 l.due := by
  obtain ⟨hl, hq⟩ := List.mem_filter.1 h
  refine ⟨by simpa using hq, ?_⟩
  rw [Nat.min_comm]
  simp only [List.mem_append, List.mem_mapIdx, List.mem_map] at hl
  rcases hl with (⟨_, _, rfl⟩ | ⟨_, _, rfl⟩) | ⟨_, _, rfl⟩ <;> rfl

theorem mkTicket_saturated (b : Bu) (j : JobRec) (t : Tariff) (kind : TicketKind) (sec : Nat) :
    let k := mkTicket b j t kind sec
    k.saturated = true ↔
      (∃ l ∈ k.lines, 99999999999 < l.due) ∨ 99999999999 < (k.lines.map Line.charge).sum := by
  intro k
  show (k.lines.any Line.held || decide (99999999999 < (k.lines.map Line.charge).sum)) = true ↔ _
  simp only [Bool.or_eq_true, List.any_eq_true, decide_eq_true_eq, held_iff]

/-! ## A record that joins the outbox (R165) -/

section
variable {r : OutRec} {s v : State}

/-- Behind another it waits its turn. -/
theorem joinOutbox_of_behind (h : s.bu.outbox ≠ []) :
    joinOutbox r s = s.setBu { s.bu with outbox := s.bu.outbox ++ [r] } :=
  if_neg (by simpa using h)

section
variable (h : s.bu.outbox = [])
include h

theorem joinOutbox_of_empty :
    joinOutbox r s = buFreed (s.setBu { s.bu with outbox := s.bu.outbox ++ [r] }) := by
  simp [joinOutbox, buFreed, h]

variable {o : Option Nat} (e : r.handOver (s.setBu { s.bu with outbox := s.bu.outbox ++ [r] }) = (v, o))
include e

theorem joinOutbox_of_kept (ho : o = none) : joinOutbox r s = v := by
  rw [joinOutbox_of_empty h]
  exact buFreed_of_kept (congrArg (· ++ [r]) h) (ho ▸ e)

theorem joinOutbox_of_taken {q : Nat} (ho : o = some q) :
    joinOutbox r s = v.setBu { (r.taken q s.bu) with outbox := [] } := by
  rw [joinOutbox_of_empty h, buFreed_of_taken (congrArg (· ++ [r]) h) (ho ▸ e), buFreed_of_empty rfl]
  cases r <;> rfl

end

end

/-! ## What a ticket's building leaves (R167, R171) -/

section
variable {s : State} {kind : TicketKind} {sec : Nat}

theorem buildTicket_reports : (buildTicket kind sec s).reports = s.reports := by
  unfold buildTicket
  split
  · exact joinOutbox_reports ..
  · rfl

theorem buildTicket_free (h : s.lc.free) : (buildTicket kind sec s).lc.free := by
  unfold buildTicket
  split
  · exact (joinOutbox_keeps (.refl _)).raise.free h
  · exact h

theorem testFinal_reports : (testFinal s).reports = s.reports := by
  unfold testFinal
  split
  · exact buildTicket_reports
  · rfl

theorem testFinal_free (h : s.lc.free) : (testFinal s).lc.free := by
  unfold testFinal
  split
  · exact buildTicket_free h
  · exact h

theorem testFinal_of_not_waiting (h : ¬(s.bu.jobSt = .closing ∧ s.bu.finalWaiting = true)) :
    testFinal s = s := by
  refine if_neg fun hc => h ?_
  simp only [Bool.and_eq_true, decide_eq_true_eq] at hc
  exact hc.1

end

/-- The newest ticket, as READ and ISSUE TICKET show it. -/
theorem lastTicket_of_unrecorded {b : Bu} {l : List Ticket} {k : Ticket}
    (h : b.unrecorded = (l ++ [k]).map Ticket.unrecorded) :
    b.lastTicket = be 4 k.number ++ be 4 k.fromSec ++ be 4 k.toSec ++ be 5 k.total := by
  have e : b.tickets.getLast?.map Ticket.unrecorded = some k.unrecorded := by
    rw [← List.getLast?_map]
    exact (congrArg List.getLast? h).trans (by simp)
  obtain ⟨t, ht, hk⟩ := Option.map_eq_some_iff.1 e
  simp only [Ticket.unrecorded, Ticket.mk.injEq] at hk
  simp only [Bu.lastTicket, ht, hk]

/-! ## ISSUE TICKET (R169) -/

theorem ownIssueTicket_of_live {s : State} (hj : s.bu.jobSt = .opened ∨ s.bu.jobSt = .suspended) :
    ownIssueTicket s =
      if !s.bu.listFree then refused .listFull s
      else (buildTicket .interim s.now s, .ok (buildTicket .interim s.now s).bu.lastTicket) := by
  rw [ownIssueTicket, if_neg (ne_of_live hj).1, if_neg (ne_of_live hj).2]

/-- Settles O41: the refusals in order and the ticket that is built; its lines, band by band, category by
category and item by item; and a record that joins the outbox, by what waits there and whether the store
takes it. -/
theorem issueTicketBillsTheSet : Obligations.IssueTicketBillsTheSet := by
  refine ⟨fun dt tag s hs => ?_, fun b j t kind sec => ?_, fun r u => ?_⟩
  · -- The message.
    intro h
    rw [show s.bu = h.bu from heard_bu.symm, show s.tps = h.tps from heard_tps.symm]
    intro c refuse
    have same {why : Reason} (e : ownIssueTicket h = refused why h) : refuse why :=
      congrArg _ (requestRow_unchanged hs e)
    refine ⟨fun hj => same (if_pos hj), fun hj => same ?_, fun hj => ⟨fun hf => same ?_,
      fun j t hf hjob ht => ?_⟩⟩
    · rw [ownIssueTicket, if_neg (by simp [hj]), if_pos hj]
    · exact (ownIssueTicket_of_live hj).trans (if_pos (by simp [hf]))
    · intro k u
      have e := ownIssueTicket_of_live hj
      rw [if_neg (by simp [hf])] at e
      have built : buildTicket .interim h.now h = u := buildTicket_of_job hjob ht ..
      have shown : u.bu.lastTicket = _ := lastTicket_of_unrecorded (joinOutbox_unrecorded ..)
      rw [built, shown] at e
      exact congrArg _ (requestRow_of_own hs e
        (built ▸ buildTicket_reports.trans (heard_reports.trans hs.2.1))
        (built ▸ buildTicket_free (heard_free hs.2.2)))
  · -- The ticket.
    intro k a charge
    exact ⟨(ticketLines_eq t a).trans (congrArg₂ (· ++ ·) (congrArg₂ (· ++ ·) (bandLines_kept t a)
        (categoryLines_kept t a)) (itemLines_kept t a)),
      fun l hl => charge_of_mem_ticketLines hl, rfl, mkTicket_saturated b j t kind sec, rfl, rfl, rfl, rfl,
      fun x hx => congrArg (Option.getD · 0) hx, rfl, rfl⟩
  · -- The outbox.
    intro joined given tickets
    have hand : given = r.handOver joined := by cases r <;> rfl
    refine ⟨joinOutbox_of_behind, fun v ho e => joinOutbox_of_kept ho (hand.symm.trans e) rfl,
      fun v q ho e => ?_⟩
    exact (joinOutbox_of_taken ho (hand.symm.trans e) rfl).trans (congrArg v.setBu (taken_bu r q u.bu []))

/-! ## COLLECT TICKET (R174) -/

section
variable {s : State} {n : Nat} (hn : n ≠ 0)
include hn

theorem ownCollectTicket_of_unknown (h : ∀ k ∈ s.bu.tickets, k.number ≠ n) :
    ownCollectTicket n s = refused .notFound s := by
  have none_found : s.bu.tickets.find? (fun k => k.number == n) = none := by simpa using h
  rw [ownCollectTicket, if_neg hn, none_found]

theorem ownCollectTicket_of_known {k : Ticket}
    (h : s.bu.tickets.find? (fun k => k.number == n) = some k) : ownCollectTicket n s =
      if k.recSeq.isNone && !s.rws.exhausted then refused .busy s
      else
        let u := testFinal (s.setBu (s.bu.collect n))
        (u, .ok (ticketList u.bu)) := by
  rw [ownCollectTicket, if_neg hn, h]

end

/-- Settles O43: the refusals in order; the place that is freed; and the FINAL ticket, where it waits. -/
theorem collectTicketFreesItsPlace : Obligations.CollectTicketFreesItsPlace := by
  intro dt tag n s hs h
  rw [show s.bu = h.bu from heard_bu.symm,
    show s.rws.exhausted = h.rws.exhausted by simp [h, State.heard]]
  intro c refuse
  have same {why : Reason} (e : ownCollectTicket n.toNat h = refused why h) : refuse why :=
    congrArg _ (requestRow_unchanged hs e)
  have number (h0 : n ≠ 0) : n.toNat ≠ 0 := fun e => h0 (BitVec.toNat_inj.1 e)
  refine ⟨fun h0 => same (if_pos (by simp [h0])),
    fun h0 hk => same (ownCollectTicket_of_unknown (number h0) hk), fun k h0 hk => ?_⟩
  have known := ownCollectTicket_of_known (number h0) hk
  refine ⟨fun hp hx => same (known.trans (if_pos (by simp [hp, hx]))), fun hp => ?_⟩
  intro t
  have freed : h.setBu (h.bu.collect n.toNat) = t := rfl
  rw [if_neg (by simpa [or_iff_not_imp_left] using hp), freed] at known
  have answers {u : State} (e : testFinal t = u) :
      c = .next (u.answering tag (.collectTicket n) (.ok (ticketList u.bu))) := by
    rw [e] at known
    exact congrArg _ (requestRow_of_own hs known
      (e ▸ testFinal_reports.trans (heard_reports.trans hs.2.1)) (e ▸ testFinal_free (heard_free hs.2.2)))
  refine ⟨fun hw => answers (testFinal_of_not_waiting hw), fun hc hw => ?_⟩
  intro u
  refine ⟨answers rfl, fun hf => ?_, fun hf => answers (testFinal_of_full hf),
    fun j tf sec hf hj ht hsec => ?_⟩
  · have placed : u = _ := testFinal_of_place (s := t) hc hw hf
    rw [placed]
    rfl
  · refine answers ?_
    have second : ((t.bu.job.bind JobRec.closeSec).getD 0) = sec := by
      show ((h.bu.job.bind JobRec.closeSec).getD 0) = sec
      rw [hj, Option.bind_some, hsec]
      rfl
    rw [testFinal_of_place (s := t) hc hw hf, second, buildTicket_of_job (s := t) hj ht]
    rfl

end Sys2Proof.Machine
end

section
/-! PROOFS. Jobs: what the sample queue's head, the high-water mark and a JOB OPENED record change (R109, R121,
R122, R165). -/

namespace Sys2Proof.Machine

/-! ## The head of the sample queue, tested for commit (R122) -/

section
variable (s : State)

theorem commitHead_bu : (commitHead s).1.bu = s.bu := by
  unfold commitHead
  split
  · rfl
  · simp only []
    split <;> exact handOver_bu ..

theorem testHead_bu : (testHead s).bu = s.bu := by
  suffices test : ∀ n t, (testHeads n t).bu = t.bu from test ..
  intro n
  induction n with
  | zero => exact fun _ => rfl
  | succ n ih =>
    intro t
    unfold testHeads
    split
    · rfl
    · split
      · simp only []
        split
        · exact (ih _).trans (commitHead_bu t)
        · exact commitHead_bu t
      · rfl

theorem testHead_offReports : (testHead s).offReports = s.offReports := testHeads_offReports ..

theorem testHead_offBuilder : (testHead s).offBuilder = s.offBuilder := testHeads_offBuilder ..

variable {s}

/-- With no place, and no number running out, no head leaves. -/
theorem testHead_of_no_place (hp : s.rws.hasPlace = false)
    (hn : s.rws.nextSeq ≤ 4294967295 ∨ s.rws.exhausted = true) : testHead s = s := by
  cases h : s.dib.queue with
  | nil => exact testHead_of_empty h
  | cons e rest =>
    by_cases hr : e.ready = true
    · exact testHead_of_kept h hr (handOver_of_no_place hp hn)
    · exact testHead_of_not_ready h hr

/-- An only entry that is ready leaves for the writer queue, where there is a place. -/
theorem testHead_of_only {e : Entry} (h : s.dib.queue = [e]) (hr : e.ready = true)
    (hp : s.rws.hasPlace = true) :
    testHead s = (s.setRws (writerTest
      { s.rws with
        nextSeq := s.rws.nextSeq + 1
        queue := s.rws.queue ++ [⟨.interval, s.rws.nextSeq, e.iv.job,
          blocksFor (e.body s.tps.clock).length, s.tps.clock, e.body s.tps.clock, false,
          some e.iv.number⟩] })).setDib { s.dib with queue := [] } := by
  rw [testHead_of_taken h hr (handOver_of_place hp)]
  exact testHead_of_empty rfl

end

/-- The flush mark of an entry of the earlier job, UNSAMPLED where it was not ready (R121). -/
theorem flushEntry_eq (e : Entry) : flushEntry e = { e with
    flush := true
    iv := { e.iv with
      unsampled := e.iv.unsampled
        || !(e.flush || decide (e.st ≠ .awaiting) && (e.iv.final || e.graceOver)) } } := by
  have st : (e.st != .awaiting) = decide (e.st ≠ .awaiting) := by
    by_cases h : e.st = .awaiting <;> simp [h]
  rw [flushEntry, Entry.ready, st]

/-! ## The builder's blocks, but for the intervals (R109, R114) -/

/-- The builder but for its intervals: what their closing leaves. -/
def Dib.offIntervals (d : Dib) : Dib := { d with queue := [], openIv := none, nextInterval := 0 }

/-- A billing unit but for its footage: what a rise of the high-water mark leaves. -/
def Bu.offFootage (b : Bu) : Bu :=
  { b with totals := { b.totals with footage := [] }, since := { b.since with footage := [] } }

section
variable (s : State)

theorem closeInterval_bu (goOn : Bool) (bottom : Nat) : (closeInterval goOn bottom s).bu = s.bu := by
  unfold closeInterval
  split
  · rfl
  · cases goOn <;> rfl

theorem closeInterval_offIntervals (goOn : Bool) (bottom : Nat) :
    (closeInterval goOn bottom s).dib.offIntervals = s.dib.offIntervals := by
  unfold closeInterval
  split
  · rfl
  · cases goOn <;> rfl

theorem makeRoom_bu : (makeRoom s).1.bu = s.bu := bu_of_makeRoom rfl

theorem makeRoom_offIntervals : (makeRoom s).1.dib.offIntervals = s.dib.offIntervals :=
  makeRoom_leaves (·.dib.offIntervals) (fun _ _ _ _ _ t => by rw [handOver_dib]) (fun _ _ => rfl) s

theorem testBoundary_bu : (testBoundary s).bu = s.bu := by
  unfold testBoundary
  split
  · rfl
  · split
    · rfl
    · simp only []
      split
      · exact (closeInterval_bu ..).trans (makeRoom_bu _)
      · exact makeRoom_bu _

theorem testBoundary_offIntervals : (testBoundary s).dib.offIntervals = s.dib.offIntervals := by
  unfold testBoundary
  split
  · rfl
  · split
    · rfl
    · simp only []
      split
      · exact (closeInterval_offIntervals ..).trans (makeRoom_offIntervals _)
      · exact makeRoom_offIntervals _

theorem accrueFootage_dib (h0 h1 : Nat) : (accrueFootage h0 h1 s).dib = s.dib := by
  unfold accrueFootage
  split <;> rfl

theorem accrueFootage_offFootage (h0 h1 : Nat) :
    (accrueFootage h0 h1 s).bu.offFootage = s.bu.offFootage := by
  unfold accrueFootage
  split <;> rfl

theorem drilledDistance_dib (x : Nat) : (drilledDistance x s).dib = s.dib :=
  congrArg (·.2.2.2.2.2.1) (drilledDistance_offRods s x)

theorem drilledDistance_bu (x : Nat) : (drilledDistance x s).bu = s.bu :=
  congrArg (·.2.2.2.2.2.2.2.1) (drilledDistance_offRods s x)

/-- The test against the mark changes the billing unit in its footage only (R109, R150). -/
theorem testHwm_offFootage : (testHwm s).bu.offFootage = s.bu.offFootage := by
  unfold testHwm
  split
  · simp only []
    rw [testBoundary_bu, drilledDistance_bu, accrueFootage_offFootage]
    rfl
  · rfl

variable {s}

/-- In a job the mark rises to the depth (R109). -/
theorem testHwm_offIntervals (hj : s.bu.jobSt = .opened) :
    (testHwm s).dib.offIntervals = { s.dib with hwm := max s.dib.hwm s.dib.depth }.offIntervals := by
  unfold testHwm
  split
  · next h =>
    have rise : s.dib.hwm < s.dib.depth := by simpa [live_iff.2 (.inl hj)] using h
    simp only []
    rw [testBoundary_offIntervals, drilledDistance_dib, accrueFootage_dib, Nat.max_eq_right rise.le]
    rfl
  · next h =>
    have still : s.dib.depth ≤ s.dib.hwm := by simpa [live_iff.2 (.inl hj)] using h
    rw [Nat.max_eq_left still]

end

/-! ## A JOB OPENED record at the outbox (R165) -/

section
variable (job : Nat) (body : List Byte) (s : State)

theorem joinOutbox_offBuilder (r : OutRec) : (joinOutbox r s).offBuilder = s.offBuilder :=
  joinOutbox_leaves State.offBuilder (fun _ _ _ _ _ t => handOver_offBuilder t ..) (fun _ _ _ _ => rfl)
    (fun _ _ => rfl) r s

theorem joinOutbox_dib (r : OutRec) : (joinOutbox r s).dib = s.dib :=
  joinOutbox_leaves State.dib (fun _ _ _ _ _ t => handOver_dib t ..) (fun _ _ _ _ => rfl)
    (fun _ _ => rfl) r s

theorem joinOutbox_rrc (r : OutRec) : (joinOutbox r s).rrc = s.rrc :=
  joinOutbox_leaves State.rrc (fun _ _ _ _ _ t => congrArg (·.2.2.2.2.2.1) (handOver_offReports t ..))
    (fun _ _ _ _ => rfl) (fun _ _ => rfl) r s

section
variable {s} (h : s.bu.outbox = [])
include h

/-- Alone in the outbox it leaves for the writer queue, where there is a place. -/
theorem joinOutbox_jobOpened_of_place (hp : s.rws.hasPlace = true) : joinOutbox (.jobOpened job body) s =
    (s.setRws (writerTest
      { s.rws with
        nextSeq := s.rws.nextSeq + 1
        queue := s.rws.queue ++
          [⟨.jobOpened, s.rws.nextSeq, job, blocksFor body.length, s.tps.clock, body, true, none⟩] })).setBu
      { s.bu with outbox := [] } :=
  joinOutbox_of_taken (r := .jobOpened job body) h
    (handOver_of_place (s := s.setBu { s.bu with outbox := s.bu.outbox ++ [.jobOpened job body] }) hp) rfl

theorem joinOutbox_jobOpened_of_no_place (hp : s.rws.hasPlace = false)
    (hn : s.rws.nextSeq ≤ 4294967295 ∨ s.rws.exhausted = true) :
    joinOutbox (.jobOpened job body) s =
      s.setBu { s.bu with outbox := s.bu.outbox ++ [.jobOpened job body] } :=
  joinOutbox_of_kept (r := .jobOpened job body) h
    (handOver_of_no_place (s := s.setBu { s.bu with outbox := s.bu.outbox ++ [.jobOpened job body] }) hp hn)
    rfl

end

/-- It changes the outbox alone in the billing unit. -/
theorem joinOutbox_jobOpened_bu :
    { (joinOutbox (.jobOpened job body) s).bu with outbox := [] } = { s.bu with outbox := [] } := by
  by_cases h : s.bu.outbox = []
  · rcases e : (OutRec.jobOpened job body).handOver
        (s.setBu { s.bu with outbox := s.bu.outbox ++ [.jobOpened job body] }) with ⟨v, _ | q⟩
    · have hb : v.bu = _ := (congrArg (·.1.bu) e).symm.trans (handOver_bu ..)
      rw [joinOutbox_of_kept h e rfl, hb]
      rfl
    · rw [joinOutbox_of_taken h e rfl]
      rfl
  · rw [joinOutbox_of_behind h]
    rfl

end

end Sys2Proof.Machine
end

section
/-! PROOFS. Jobs: OPEN JOB (R110, R121, R122, R163 to R165). -/

namespace Sys2Proof.Machine

/-! ## The job as it begins (R110, R164) -/

/-- The billing unit as a job begins (R164). -/
def Bu.begun (j : JobRec) (t : Tariff) (b : Bu) : Bu :=
  { b with
    job := some j, jobSt := .opened, openSecs := 0, finalWaiting := false
    totals := .zero t.bands.length, since := .zero t.bands.length, sinceFrom := some j.openSec
    breakdown := none }

/-- The builder as a job begins at a depth, before interval 1 opens (R110, R121). -/
def Dib.begun (job x : Nat) (d : Dib) : Dib :=
  { d with jobNo := some job, jobStart := x, hwm := x, nextInterval := 1, queue := d.queue.map flushEntry }

/-- Both, the start depth still to be reported to the billing unit. -/
def State.begun (job id x : Nat) (t : Tariff) (s : State) : State :=
  (s.setBu (s.bu.begun ⟨job, id, 0, s.tps.clock, none⟩ t)).setDib (s.dib.begun job x)

/-- The builder's part of OPEN JOB is done (R110, R121, R122). -/
def State.opening (job id x : Nat) (t : Tariff) (s : State) : State :=
  testHwm (openInterval x (testHead (s.begun job id x t)))

/-- The billing unit has taken the start depth (R164). -/
def State.startsAt (x : Nat) (s : State) : State :=
  s.setBu { s.bu with job := s.bu.job.map (fun j => { j with start := x }) }

/-- The job is opened: its JOB OPENED record has joined the outbox (R165). -/
def State.jobOpened (job id x : Nat) (t : Tariff) (s : State) : State :=
  joinOutbox (.jobOpened job (jobOpenedBody t x s.dib.depth s.dib.offset))
    ((s.opening job id x t).startsAt x)

section
variable (job id x : Nat) (t : Tariff) (s : State)

theorem opening_offBuilder : (s.opening job id x t).offBuilder = s.offBuilder := by
  rw [State.opening, testHwm_offBuilder, openInterval_offBuilder, testHead_offBuilder]
  rfl

theorem opening_offFootage : (s.opening job id x t).bu.offFootage =
    (s.bu.begun ⟨job, id, 0, s.tps.clock, none⟩ t).offFootage := by
  rw [State.opening, testHwm_offFootage]
  exact congrArg Bu.offFootage (testHead_bu _)

theorem testHead_begun_dib : { (testHead (s.begun job id x t)).dib with queue := [] } =
    { s.dib.begun job x with queue := [] } :=
  congrArg (·.2.2.2.2.2.2.1) (testHead_offReports (s.begun job id x t))

theorem testHead_begun_hwm : (testHead (s.begun job id x t)).dib.hwm = x :=
  (congrArg Dib.hwm (testHead_begun_dib job id x t s) :)

theorem testHead_begun_depth : (testHead (s.begun job id x t)).dib.depth = s.dib.depth :=
  (congrArg Dib.depth (testHead_begun_dib job id x t s) :)

theorem opening_offIntervals : (s.opening job id x t).dib.offIntervals =
    { s.dib.begun job x with hwm := max x s.dib.depth }.offIntervals := by
  have hj : (openInterval x (testHead (s.begun job id x t))).bu.jobSt = .opened :=
    congrArg Bu.jobSt (testHead_bu _)
  rw [State.opening, testHwm_offIntervals hj]
  show { ({ (testHead (s.begun job id x t)).dib with queue := [] } : Dib) with
    openIv := none, nextInterval := 0
    hwm := max (testHead (s.begun job id x t)).dib.hwm (testHead (s.begun job id x t)).dib.depth } = _
  rw [testHead_begun_dib, testHead_begun_hwm, testHead_begun_depth]
  rfl

theorem opening_jobStart : (s.opening job id x t).dib.jobStart = x :=
  (congrArg Dib.jobStart (opening_offIntervals job id x t s) :)

theorem opening_depth : (s.opening job id x t).dib.depth = s.dib.depth :=
  (congrArg Dib.depth (opening_offIntervals job id x t s) :)

theorem opening_offset : (s.opening job id x t).dib.offset = s.dib.offset :=
  (congrArg Dib.offset (opening_offIntervals job id x t s) :)

theorem openJob_eq {start : Option Nat} (hx : start.getD (if s.dib.unset then 0 else s.dib.depth) = x) :
    openJob job id start t s = s.jobOpened job id x t := by
  have e : openJob job id start t s =
      joinOutbox (.jobOpened job (jobOpenedBody t (s.opening job id x t).dib.jobStart
        (s.opening job id x t).dib.depth (s.opening job id x t).dib.offset))
        ((s.opening job id x t).startsAt (s.opening job id x t).dib.jobStart) := by
    subst hx
    rfl
  rw [e, opening_jobStart, opening_depth, opening_offset]
  rfl

theorem jobOpened_offBuilder : (s.jobOpened job id x t).offBuilder = s.offBuilder :=
  (joinOutbox_offBuilder ..).trans (opening_offBuilder job id x t s)

theorem jobOpened_dib : (s.jobOpened job id x t).dib = (s.opening job id x t).dib := joinOutbox_dib ..

/-- The job's own figures in the billing unit: all but footage and outbox (R164). -/
theorem jobOpened_bu : { (s.jobOpened job id x t).bu.offFootage with outbox := [] } =
    { (s.bu.begun ⟨job, id, x, s.tps.clock, none⟩ t).offFootage with outbox := [] } := by
  have joined : { (s.jobOpened job id x t).bu with outbox := [] } =
      { ((s.opening job id x t).startsAt x).bu with outbox := [] } := joinOutbox_jobOpened_bu ..
  have footless := congrArg (fun b : Bu =>
    ({ b with job := b.job.map (fun j => { j with start := x }), outbox := [] } : Bu))
    (opening_offFootage job id x t s)
  exact (congrArg Bu.offFootage joined).trans footless

theorem jobOpened_free (h : s.lc.free) : (s.jobOpened job id x t).lc.free := by
  have k : Keeps (s.begun job id x t) (s.opening job id x t) :=
    testHwm_keeps (openInterval_keeps (testHead_keeps (.refl _)))
  have free : ((s.opening job id x t).startsAt x).lc.free := k.free h
  exact (joinOutbox_keeps (.refl _)).free free

section
variable {s x} (h : s.dib.depth ≤ x)
include h

/-- Where the depth is not past the start depth, the mark stays there. -/
theorem opening_of_still : s.opening job id x t = openInterval x (testHead (s.begun job id x t)) := by
  rw [← testHead_begun_hwm job id x t s, ← testHead_begun_depth job id x t s] at h
  exact testHwm_of_still (.inr (.inr h))

theorem opening_bu_of_still :
    (s.opening job id x t).bu = s.bu.begun ⟨job, id, 0, s.tps.clock, none⟩ t := by
  rw [opening_of_still job id t h]
  exact testHead_bu _

end

end

/-! ## The record and the queue, where the depth is not past the start depth (R122, R165) -/

section
variable {job id x : Nat} {t : Tariff} {s : State}

theorem jobOpened_outbox_of_behind (h : s.bu.outbox ≠ []) : (s.jobOpened job id x t).bu.outbox =
    s.bu.outbox ++ [.jobOpened job (jobOpenedBody t x s.dib.depth s.dib.offset)] := by
  have e : ((s.opening job id x t).startsAt x).bu.outbox = s.bu.outbox :=
    (congrArg Bu.outbox (opening_offFootage job id x t s) :)
  rw [State.jobOpened, joinOutbox_of_behind (e ▸ h)]
  exact congrArg (· ++ _) e

variable (hd : s.dib.depth ≤ x)
include hd

theorem jobOpened_rrc_of_still : (s.jobOpened job id x t).rrc = s.rrc := by
  refine (joinOutbox_rrc ..).trans ?_
  show (s.opening job id x t).rrc = s.rrc
  rw [opening_of_still job id t hd]
  exact congrArg (·.2.2.2.2.2.1) (testHead_offReports (s.begun job id x t))

theorem jobOpened_queue_of_still :
    (s.jobOpened job id x t).dib.queue = (testHead (s.begun job id x t)).dib.queue := by
  rw [jobOpened_dib, opening_of_still job id t hd]
  rfl

theorem jobOpened_queue_of_no_place (hp : s.rws.hasPlace = false)
    (hn : s.rws.nextSeq ≤ 4294967295 ∨ s.rws.exhausted = true) :
    (s.jobOpened job id x t).dib.queue = s.dib.queue.map flushEntry := by
  rw [jobOpened_queue_of_still hd, testHead_of_no_place (s := s.begun job id x t) hp hn]
  rfl

/-- An only entry of the earlier job leaves before the job's own record, which waits behind another. -/
theorem jobOpened_of_only {e : Entry} (hq : s.dib.queue.map flushEntry = [e]) (hp : s.rws.hasPlace = true)
    (ho : s.bu.outbox ≠ []) :
    (s.jobOpened job id x t).dib.queue = [] ∧ (s.jobOpened job id x t).rws = writerTest
      { s.rws with
        nextSeq := s.rws.nextSeq + 1
        queue := s.rws.queue ++ [⟨.interval, s.rws.nextSeq, e.iv.job,
          blocksFor (e.body s.tps.clock).length, s.tps.clock, e.body s.tps.clock, false,
          some e.iv.number⟩] } := by
  have flushed : e.flush = true := by
    obtain ⟨y, -, rfl⟩ := List.mem_map.1 (hq ▸ List.mem_singleton_self e)
    rfl
  have left := testHead_of_only (s := s.begun job id x t) hq (by simp [Entry.ready, flushed]) hp
  refine ⟨by rw [jobOpened_queue_of_still hd, left]; rfl, ?_⟩
  have behind : ((s.opening job id x t).startsAt x).bu.outbox ≠ [] :=
    ((congrArg Bu.outbox (opening_offFootage job id x t s) :) : _ = s.bu.outbox) ▸ ho
  rw [State.jobOpened, joinOutbox_of_behind behind]
  show (s.opening job id x t).rws = _
  rw [opening_of_still job id t hd, left]
  rfl

theorem jobOpened_footage_of_still :
    (s.jobOpened job id x t).bu.totals.footage = List.replicate t.bands.length 0
      ∧ (s.jobOpened job id x t).bu.since.footage = List.replicate t.bands.length 0 := by
  have joined : { (s.jobOpened job id x t).bu with outbox := [] } =
      { ((s.opening job id x t).startsAt x).bu with outbox := [] } := joinOutbox_jobOpened_bu ..
  have totals : (s.jobOpened job id x t).bu.totals = (s.opening job id x t).bu.totals :=
    (congrArg Bu.totals joined :)
  have since : (s.jobOpened job id x t).bu.since = (s.opening job id x t).bu.since :=
    (congrArg Bu.since joined :)
  rw [totals, since, opening_bu_of_still job id t hd]
  exact ⟨rfl, rfl⟩

theorem jobOpened_openIv_of_still : ∃ v, (s.jobOpened job id x t).dib.openIv = some v ∧ v.job = job
    ∧ v.number = 1 ∧ v.top = x ∧ v.length = s.pIntervalLength ∧ v.boundary = x + s.pIntervalLength
    ∧ v.openSec = s.tps.clock ∧ v.drillSecs = 0 ∧ v.mats = [] := by
  let w := testHead (s.begun job id x t)
  have named : w.dib.jobNo = some job := (congrArg Dib.jobNo (testHead_begun_dib job id x t s) :)
  have number : w.dib.nextInterval = 1 := (congrArg Dib.nextInterval (testHead_begun_dib job id x t s) :)
  have params : w.params = s.params := congrArg (·.2.2.2.2.2.1) (testHead_offBuilder (s.begun job id x t))
  have tps : w.tps = s.tps := congrArg (·.2.2.2.2.1) (testHead_offBuilder (s.begun job id x t))
  have length : w.pIntervalLength = s.pIntervalLength :=
    congrArg (fun l : List Int => (l.getD 24 0).toNat) params
  rw [jobOpened_dib, opening_of_still job id t hd]
  exact ⟨_, rfl, congrArg (Option.getD · 0) named, number, rfl, length, congrArg (x + ·) length,
    congrArg Tps.clock tps, rfl, rfl⟩

section
variable (hq : s.dib.queue = [])
include hq

theorem opening_of_empty : s.opening job id x t = openInterval x (s.begun job id x t) := by
  rw [opening_of_still job id t hd, testHead_of_empty (congrArg (List.map flushEntry) hq)]

variable (ho : s.bu.outbox = [])
include ho

/-- Alone in the outbox, the job's record is handed over at once, with its fresh-sector mark. -/
theorem jobOpened_of_place (hp : s.rws.hasPlace = true) :
    let body := jobOpenedBody t x s.dib.depth s.dib.offset
    (s.jobOpened job id x t).bu.outbox = [] ∧ (s.jobOpened job id x t).rws = writerTest
      { s.rws with
        nextSeq := s.rws.nextSeq + 1
        queue := s.rws.queue ++ [⟨.jobOpened, s.rws.nextSeq, job, blocksFor body.length,
          s.tps.clock, body, true, none⟩] } := by
  have alone : (State.startsAt x (openInterval x (s.begun job id x t))).bu.outbox = [] := ho
  rw [State.jobOpened, opening_of_empty hd hq, joinOutbox_jobOpened_of_place _ _ alone hp]
  exact ⟨rfl, rfl⟩

theorem jobOpened_of_no_place (hp : s.rws.hasPlace = false)
    (hn : s.rws.nextSeq ≤ 4294967295 ∨ s.rws.exhausted = true) :
    (s.jobOpened job id x t).bu.outbox = [.jobOpened job (jobOpenedBody t x s.dib.depth s.dib.offset)]
      ∧ (s.jobOpened job id x t).rws = s.rws := by
  have alone : (State.startsAt x (openInterval x (s.begun job id x t))).bu.outbox = [] := ho
  rw [State.jobOpened, opening_of_empty hd hq, joinOutbox_jobOpened_of_no_place _ _ alone hp hn]
  exact ⟨congrArg (· ++ _) ho, rfl⟩

end

end

/-! ## The message (R163) -/

theorem openedWaits_iff {b : Bu} : b.openedWaits = true ↔ ∃ k x, .jobOpened k x ∈ b.outbox := by
  rw [Bu.openedWaits, List.any_eq_true]
  constructor
  · rintro ⟨r, hr, hk⟩
    cases r with
    | jobOpened k x => exact ⟨k, x, hr⟩
    | ticket => cases hk
  · rintro ⟨k, x, hr⟩
    exact ⟨_, hr, rfl⟩

section
variable {job id : Nat} {start : Option Nat} {s : State}

theorem ownOpenJob_of_job (h : s.bu.jobSt ≠ .noJob) : ownOpenJob job id start s = refused .state s := by
  rw [ownOpenJob, if_pos (by simpa using h)]

variable (h : s.bu.jobSt = .noJob)
include h

theorem ownOpenJob_of_range
    (hr : (job < 1 ∨ 999999 < job) ∨ (id < 1 ∨ 4 < id) ∨ boundTop < start.getD 0) :
    ownOpenJob job id start s = refused .range s := by
  rw [ownOpenJob, if_neg (by simp [h])]
  split
  · rfl
  · split
    · rfl
    · exact if_pos (by tauto)

variable (hr : ¬((job < 1 ∨ 999999 < job) ∨ (id < 1 ∨ 4 < id) ∨ boundTop < start.getD 0))
include hr

theorem ownOpenJob_of_no_tariff (ht : s.bu.tariffAt id = none) :
    ownOpenJob job id start s = refused .notFound s := by
  obtain ⟨hj, hi, hd⟩ := by simpa only [not_or] using hr
  rw [ownOpenJob, if_neg (by simp [h]), if_neg (by tauto), if_neg (by tauto), if_neg hd, ht]

/-- With a tariff, by the ticket list and the outbox. -/
theorem ownOpenJob_of_tariff {t : Tariff} (ht : s.bu.tariffAt id = some t) :
    ownOpenJob job id start s =
      if !s.bu.listFree then refused .listFull s
      else if s.bu.openedWaits then refused .busy s
      else
        let u := openJob job id start t s
        (u, .ok (be 3 job ++ be 4 u.dib.jobStart ++ be 4 s.now)) := by
  obtain ⟨hj, hi, hd⟩ := by simpa only [not_or] using hr
  rw [ownOpenJob, if_neg (by simp [h]), if_neg (by tauto), if_neg (by tauto), if_neg hd, ht]

end

theorem optDepth_getD (d : BitVec 32) (n : Nat) :
    (optDepth d).getD n = if d = BitVec.allOnes 32 then n else d.toNat := by
  unfold optDepth
  split <;> rfl

/-- Settles O38: the refusals in order; the job as it begins; its record and the earlier job's entries; and
interval 1, where the depth is not past the start depth. -/
theorem openJobBeginsAJob : Obligations.OpenJobBeginsAJob := by
  intro dt tag j i d s hs h
  rw [show s.bu = h.bu from heard_bu.symm, show s.dib = h.dib from heard_dib.symm,
    show s.tps = h.tps from heard_tps.symm, show s.params = h.params from heard_params.symm,
    show s.rrc = h.rrc from heard_rrc.symm,
    show s.pIntervalLength = h.pIntervalLength from congrArg (fun l : List Int => (l.getD 24 0).toNat)
      heard_params.symm,
    show s.rws.hasPlace = h.rws.hasPlace by simp [h, State.heard, Rws.hasPlace],
    show s.rws.nextSeq = h.rws.nextSeq by simp [h, State.heard],
    show s.rws.queue = h.rws.queue by simp [h, State.heard],
    show s.rws.exhausted = h.rws.exhausted by simp [h, State.heard]]
  intro c r refuse x inRange
  have free : h.lc.free := heard_free hs.2.2
  have quiet : h.reports = [] := heard_reports.trans hs.2.1
  have answers {u : State} {rep : Reply} (e : ownOpenJob j.toNat i.toNat (optDepth d) h = (u, rep))
      (hu : u.reports = []) (hf : u.lc.free) : c = .next (u.answering tag r rep) :=
    congrArg _ (requestRow_of_own hs e hu hf)
  have same {why : Reason} (e : ownOpenJob j.toNat i.toNat (optDepth d) h = refused why h) : refuse why :=
    answers e quiet free
  clear_value h
  have outside : ((j.toNat < 1 ∨ 999999 < j.toNat) ∨ (i.toNat < 1 ∨ 4 < i.toNat)
      ∨ boundTop < (optDepth d).getD 0) ↔ ¬inRange := by
    have deep : boundTop < (optDepth d).getD 0 ↔ ¬(d = BitVec.allOnes 32 ∨ d.toNat ≤ 1000000) := by
      rw [optDepth_getD, boundTop]
      by_cases hd : d = BitVec.allOnes 32
      · simp [hd]
      · rw [if_neg hd]
        simp only [hd, false_or, not_le]
    rw [deep]
    simp only [inRange, not_and_or, not_le]
    tauto
  refine ⟨fun hj => same (ownOpenJob_of_job hj), fun hj hr => same (ownOpenJob_of_range hj (outside.2 hr)),
    fun hj hr ht => same (ownOpenJob_of_no_tariff hj (fun o => outside.1 o hr) ht), fun tariff hj hr ht => ?_⟩
  have own := ownOpenJob_of_tariff (start := optDepth d) hj (fun o => outside.1 o hr) ht
  refine ⟨fun hf => same (own.trans (if_pos (by simp [hf]))), fun hf ho => same ?_, fun hf ho => ?_⟩
  · rw [own, if_neg (by simp [hf]), if_pos (openedWaits_iff.2 ho)]
  rw [if_neg (by simp [hf]), if_neg (by rw [openedWaits_iff]; simpa using ho)] at own
  intro t
  have answered : ownOpenJob j.toNat i.toNat (optDepth d) h =
      (t, .ok (be 3 j.toNat ++ be 4 t.dib.jobStart ++ be 4 h.tps.clock)) := own
  have opened : t = h.jobOpened j.toNat i.toNat x tariff := openJob_eq _ _ _ _ _ (optDepth_getD ..)
  clear_value t x
  subst opened
  have bu := jobOpened_bu j.toNat i.toNat x tariff h
  have dib := (congrArg Dib.offIntervals (jobOpened_dib ..)).trans
    (opening_offIntervals j.toNat i.toNat x tariff h)
  have rest := jobOpened_offBuilder j.toNat i.toNat x tariff h
  have start : (h.jobOpened j.toNat i.toNat x tariff).dib.jobStart = x := (congrArg Dib.jobStart dib :)
  rw [start] at answered
  refine ⟨answers answered ((reports_of_offBuilder rest).trans quiet) (jobOpened_free _ _ _ _ _ free),
    (congrArg Bu.jobSt bu :), (congrArg Bu.job bu :), (congrArg Bu.openSecs bu :),
    (congrArg Bu.finalWaiting bu :), (congrArg Bu.breakdown bu :), (congrArg Bu.sinceFrom bu :),
    (congrArg (·.totals.time) bu :), (congrArg (·.since.time) bu :), (congrArg (·.totals.mats) bu :),
    (congrArg (·.since.mats) bu :), congrArg (·.1) rest, congrArg (·.2.1) rest, congrArg (·.2.2.1) rest,
    congrArg (·.2.2.2.1) rest, congrArg (·.2.2.2.2.1) rest, congrArg (·.2.2.2.2.2.1) rest,
    (congrArg Bu.tariffs bu :), (congrArg Bu.tickets bu :), ?_, (congrArg Dib.jobNo dib :), start,
    (congrArg Dib.hwm dib :), fun ho => jobOpened_outbox_of_behind ho,
    fun hd => ⟨jobOpened_rrc_of_still hd, fun hq => ?_, fun hq ho =>
      ⟨jobOpened_of_place hd hq ho, jobOpened_of_no_place hd hq ho⟩, ?_⟩⟩
  · -- The whole state, over the queue with its flush marks.
    intro flushed
    have marked : flushed = h.dib.queue.map flushEntry :=
      List.map_congr_left fun e _ => (flushEntry_eq e).symm
    clear_value flushed
    subst marked
    intro u v
    refine ⟨?_, fun hp hd hn => jobOpened_queue_of_no_place hd hp hn,
      fun e he hp hd ho => jobOpened_of_only hd he hp ho⟩
    rw [show v.dib.depth = h.dib.depth from opening_depth .., show v.dib.offset = h.dib.offset from
      opening_offset ..]
    rfl
  · rw [jobOpened_dib, opening_of_empty hd hq]
    exact congrArg (List.map flushEntry) hq
  · obtain ⟨totals, since⟩ := jobOpened_footage_of_still (job := j.toNat) (id := i.toNat) (t := tariff) hd
    exact ⟨totals, since, jobOpened_openIv_of_still hd⟩

end Sys2Proof.Machine
end

section
/-! PROOFS. The link: the notice kinds, SET NOTICE MASK and ACK NOTICES (R183, R185, R186). -/

namespace Sys2Proof.Machine

/-! ## An event raised (R183) -/

/-- Every event is of one of the 24 kinds (10.4). -/
theorem Detail.kind_range (d : Detail) : 1 ≤ d.kind ∧ d.kind ≤ 24 := by
  cases d <;> simp [Detail.kind]

/-- What an event does to its kind, by the kind's state. -/
theorem Notice.event_eq (n : Notice) (d : Detail) : n.event d =
    match n.st with
    | .clear => ⟨.waiting, false, some d, 1⟩
    | .waiting => ⟨.waiting, n.again, some d, min (n.count + 1) 255⟩
    | .sent => ⟨.sent, true, some d, min (n.count + 1) 255⟩ := by
  obtain ⟨st, again, detail, count⟩ := n
  cases st <;> rfl

/-- The entry of a list of 24 notices that a code names is written. -/
theorem modify_notices_eq_set {l : List Notice} {code : Nat} (f : Notice → Notice) (hl : l.length = 24)
    (h : 1 ≤ code ∧ code ≤ 24) :
    l.modify (code - 1) f = l.set (code - 1) (f (l.getD (code - 1) .reset)) := by
  have hi : code - 1 < l.length := by omega
  rw [List.modify_eq_set_getElem?, List.getElem?_eq_getElem hi, List.getD_eq_getElem _ _ hi]
  rfl

/-! ## The two messages -/

/-- What an acknowledgement does to a kind, by its state. -/
theorem Notice.ack_eq (n : Notice) : n.ack =
    if n.st = .sent then
      (if n.again then { n with st := .waiting, again := false } else ⟨.clear, false, none, 0⟩)
    else n := by
  obtain ⟨st, again, detail, count⟩ := n
  cases st <;> rfl

theorem ackSet_eq (k : KindSet) (l : List Notice) : ackSet k l =
    l.mapIdx (fun i n =>
      if k.getLsbD i = true ∧ n.st = .sent then
        (if n.again then { n with st := .waiting, again := false } else ⟨.clear, false, none, 0⟩)
      else n) := by
  unfold ackSet
  congr 1
  funext i n
  rw [Notice.ack_eq]
  by_cases hk : k.getLsbD i = true <;> simp [hk]

/-- A request that is taken in start-up too, and whose owner leaves the link free (R195). -/
theorem requestRow_taken {s t : State} {dt : Nat} {tag : Byte} {r : Request} {rep : Reply} (h : s.listens)
    (hr : takenInStartUp r = true) (e : own r (s.heard dt) = (t, rep)) (quiet : t.reports = s.reports)
    (free : t.lc.free) : requestRow dt tag r s = t.answering tag r rep := by
  obtain ⟨⟨hp, hn⟩, hl⟩ := h
  exact requestRow_of_deal hp hl (by simpa [deal, hr] using e) (quiet.trans hn) free

/-- Settles O20: each message by its owner, then an event at its kind. -/
theorem maskAndAcknowledgement : Obligations.MaskAndAcknowledgement := by
  refine ⟨fun dt tag k s hs => ?_, fun u d hu => ?_⟩
  · intro h
    have free : h.lc.free := heard_free hs.2
    refine ⟨congrArg _ (requestRow_taken (r := .setNoticeMask k) hs rfl rfl heard_reports free), ?_⟩
    intro acked t
    have notices : h.lc.notices = s.lc.notices := by simp [h, State.heard]
    have flag : h.sfe.g3 = s.sfe.g3 := by simp [h, State.heard]
    have owner : own (.ackNotices k) h = (t, .ok (noticeSetBytes acked.lc)) := by
      show ownAckNotices k h = _
      simp only [ownAckNotices, ackSet_eq, groupMismatchBit, clearGroupFlag, notices, t, acked, ← flag]
      split <;> rfl
    refine congrArg _ (requestRow_taken hs rfl owner ?_ ?_)
    · simp only [t]
      split <;> exact heard_reports
    · simp only [t]
      split <;> exact free
  · intro n after
    have range := d.kind_range
    refine ⟨range.1, range.2, ?_⟩
    have written : after = n.event d := (n.event_eq d).symm
    rw [written, State.raise, modify_notices_eq_set _ hu range]

end Sys2Proof.Machine
end

section
/-! PROOFS. The link: CLEAR ALL and SET CLOCK (R155, R189). -/

namespace Sys2Proof.Machine

/-! ## CLEAR ALL -/

/-- Nothing waits to be written, or the sequence numbers are exhausted (R189). -/
theorem nothingUnwritten_iff {s : State} : nothingUnwritten s = true ↔
    s.rws.exhausted = true ∨ (s.rws.queue = [] ∧ s.rws.slot = none ∧ s.bu.outbox = []
      ∧ s.dib.queue = [] ∧ s.tps.heldRecovery = none) := by
  simp [nothingUnwritten, and_assoc]

section
variable {s : State}

theorem ownClearAll_of_job (h : s.bu.jobSt ≠ .noJob) : ownClearAll s = refused .jobOpen s :=
  if_pos (by simpa using h)

variable (hj : s.bu.jobSt = .noJob)
include hj

theorem ownClearAll_of_busy (h : s.hs.seq ≠ .idle) : ownClearAll s = refused .state s := by
  simp [ownClearAll, hj, h]

variable (hi : s.hs.seq = .idle)
include hi

theorem ownClearAll_of_unwritten (h : nothingUnwritten s ≠ true) : ownClearAll s = refused .busy s := by
  simp [ownClearAll, hj, hi, h]

theorem ownClearAll_of_written (h : nothingUnwritten s = true) :
    ownClearAll s = done (s.setLc { s.lc with clearing := true }) := by
  simp [ownClearAll, hj, hi, h]

end

/-- A request that begins the end of CLEAR ALL: its reply goes out, and no other is taken (R189). -/
theorem requestRow_clearing {s t : State} {dt : Nat} {tag : Byte} {r : Request} {rep : Reply}
    (h : s.ready) (e : own r (s.heard dt) = (t, rep)) (quiet : t.reports = [])
    (line : t.lc.locked = true ∧ t.lc.tx = none ∧ t.lc.built = none) (ht : t.lc.clearing = true) :
    requestRow dt tag r s =
      t.setLc { t.lc with tx := some ⟨.clearReply, replyFrame (encodeRequest r).1 tag rep⟩ } := by
  obtain ⟨locked, tx, built⟩ := line
  have dealt : deal r (s.heard dt) = (t, rep) := by
    unfold deal
    rw [heard_tps]
    simpa [h.1] using e
  rw [requestRow_of_free (by simp [h.1]) h.2.2]
  simp only [serve, answer, dealt, ht]
  rw [finish_of_nil (by simpa using quiet)]
  simp [lcService, locked, tx, ← built]

/-! ## SET CLOCK -/

theorem shiftGrace_eq (now second : Nat) (e : Entry) : shiftGrace now second e =
    match e.st with
    | .sampleDue d g =>
      if now < g ∧ e.graceOver = false then { e with st := .sampleDue d (second + (g - now)) } else e
    | .awaiting => e := by
  unfold shiftGrace
  cases e.st <;> simp

/-- Settles O21: the refusals of CLEAR ALL in order and the reply that begins its end; then SET CLOCK. -/
theorem clearAllAndSetClock : Obligations.ClearAllAndSetClock := by
  intro dt tag s hs h written
  have free : h.lc.free := heard_free hs.2.2
  have quiet : h.reports = [] := heard_reports.trans hs.2.1
  have job : h.bu.jobSt = s.bu.jobSt := congrArg Bu.jobSt heard_bu
  have seq : h.hs.seq = s.hs.seq := by simp [h, State.heard]
  have unwritten : nothingUnwritten h = true ↔ written := by
    rw [nothingUnwritten_iff]
    simp [h, written, State.heard]
  refine ⟨fun hj => ?_, fun hj hi => ?_, fun hj hi hw => ?_, fun hj hi hw => ?_, fun q =>
    ⟨fun hj => ?_, fun hj => ?_⟩⟩
  · exact congrArg _ (requestRow_unchanged (r := .clearAll) hs (ownClearAll_of_job (job ▸ hj)))
  · exact congrArg _ (requestRow_unchanged (r := .clearAll) hs (ownClearAll_of_busy (job.trans hj) (seq ▸ hi)))
  · exact congrArg _ (requestRow_unchanged (r := .clearAll) hs
      (ownClearAll_of_unwritten (job.trans hj) (seq.trans hi) (mt unwritten.1 hw)))
  · have owner := ownClearAll_of_written (job.trans hj) (seq.trans hi) (unwritten.2 hw)
    obtain ⟨locked, tx, built, -⟩ := free
    exact congrArg _ (requestRow_clearing (r := .clearAll) hs owner quiet ⟨locked, tx, built⟩ rfl)
  · refine congrArg _ (requestRow_unchanged hs ?_)
    exact if_pos (by simpa [job] using hj)
  · have shifted : shiftGrace h.now q.toNat = _ :=
      (congrArg (shiftGrace · q.toNat) heard_now).trans (funext (shiftGrace_eq s.tps.clock q.toNat))
    have owner : own (.setClock q) h = _ := if_neg (by simp [job, hj])
    rw [shifted, heard_tps, heard_dib] at owner
    exact congrArg _ (requestRow_of_own hs owner quiet free)

end Sys2Proof.Machine
end

section
/-! PROOFS. The link: the kind that is eligible, what the free transmitter sends, what follows a frame that has
gone out, and the line's timers (R177 to R180, R184). -/

namespace Sys2Proof.Machine

/-! ## The eligible kind (R184) -/

section
variable {l : Lc} {code : Nat}

theorem noticeCodes_eq : noticeCodes = List.range' 1 24 := rfl

theorem eligible_iff : l.eligible code = true ↔
    (l.notices.getD (code - 1) .reset).st = .waiting ∧ l.mask.getLsbD (code - 1) = true := by
  simp [Lc.eligible, Lc.notice]

/-- The kind taken is the eligible one with the lowest code. -/
theorem nextKind_eq_some_iff : l.nextKind = some code ↔
    1 ≤ code ∧ code ≤ 24 ∧ l.eligible code = true ∧ ∀ k, 1 ≤ k → k < code → ¬l.eligible k = true := by
  rw [Lc.nextKind, noticeCodes_eq, List.find?_range'_eq_some]
  simp only [List.mem_range'_1, Bool.not_eq_eq_eq_not, Bool.not_true, Bool.not_eq_true]
  constructor
  · rintro ⟨he, ⟨h1, h2⟩, hk⟩
    exact ⟨h1, by omega, he, hk⟩
  · rintro ⟨h1, h2, he, hk⟩
    exact ⟨he, ⟨h1, by omega⟩, hk⟩

theorem nextKind_eq_none_iff : l.nextKind = none ↔ ∀ k, 1 ≤ k → k ≤ 24 → ¬l.eligible k = true := by
  rw [Lc.nextKind, noticeCodes_eq, List.find?_range'_eq_none]
  simp only [Nat.lt_succ_iff, Bool.not_eq_eq_eq_not, Bool.not_true, Bool.not_eq_true, Nat.reduceAdd]

/-- The passing of time makes no kind eligible (R183, R184). -/
@[simp] theorem elapse_nextKind (dt : Nat) (s : State) : (s.elapse dt).lc.nextKind = s.lc.nextKind := by
  unfold State.elapse
  split <;> rfl

end

/-! ## The free transmitter (R180, R184) -/

section
variable {s : State} {x : TxFrame} {code : Nat}

/-- With no reply built, a notice frame begins for the eligible kind with the lowest code. -/
theorem lcService_of_kind (locked : s.lc.locked = true) (tx : s.lc.tx = none) (built : s.lc.built = none)
    (kind : s.lc.nextKind = some code) : lcService s = sendNotice code s := by
  simp [lcService, locked, tx, built, kind]

theorem lcService_of_no_kind (built : s.lc.built = none) (kind : s.lc.nextKind = none) : lcService s = s := by
  unfold lcService
  split
  · rw [built]
    simp only [kind]
  · rfl

/-! ## What follows a frame -/

/-- The link as a frame that went out ends. -/
def State.sent (s : State) : State := s.setLc { s.lc with tx := none, holdTake := false }

theorem transmitted_of_clearReply (tx : s.lc.tx = some x) (what : x.what = .clearReply) :
    transmitted s = coldStart s := by
  simp only [transmitted, tx, what]
  rfl

/-- One notice frame follows a reply, and holds the taking of requests up (R180). -/
theorem transmitted_of_reply (tx : s.lc.tx = some x) (what : x.what = .reply)
    (kind : s.lc.nextKind = some code) : transmitted s =
      (sendNotice code s.sent).setLc { (sendNotice code s.sent).lc with holdTake := true } := by
  have kind' : (s.setLc { s.lc with tx := none, holdTake := false }).lc.nextKind = some code := kind
  simp only [transmitted, tx, what, kind']
  rfl

/-- After a notice frame, or a reply that none follows, the oldest frame that waits is taken (R179, R180). -/
theorem transmitted_of_taking (tx : s.lc.tx = some x) (what : x.what ≠ .clearReply)
    (kind : x.what = .reply → s.lc.nextKind = none) : transmitted s = takeWaiting s.sent := by
  unfold transmitted
  rw [tx]
  cases hw : x.what with
  | clearReply => exact absurd hw what
  | notice => simp only [hw]; rfl
  | reply =>
    have kind' : (s.setLc { s.lc with tx := none, holdTake := false }).lc.nextKind = none := kind hw
    simp only [hw, kind']
    rfl

theorem takeWaiting_of_built {b : TxFrame} (built : s.lc.built = some b) : takeWaiting s = s := by
  simp [takeWaiting, Lc.mayTake, built]

theorem takeWaiting_of_nil (rx : s.lc.rx = []) : takeWaiting s = s := by
  simp [takeWaiting, rx]

theorem takeWaiting_of_frame {f : Frame} {rest : List Frame} (tx : s.lc.tx = none) (built : s.lc.built = none)
    (hold : s.lc.holdTake = false) (clearing : s.lc.clearing = false) (rx : s.lc.rx = f :: rest) :
    takeWaiting s =
      serve f.kind f.tag (decodeRequest f.kind f.payload) (s.setLc { s.lc with rx := rest }) := by
  simp [takeWaiting, Lc.mayTake, tx, built, hold, clearing, rx]

/-- The end of a frame, by what it leaves, with nothing handed on. -/
theorem transmitComplete_quiet {t : State} {dt : Nat} (hs : s.awake) (e : transmitted (s.elapse dt) = t)
    (quiet : t.reports = []) : exec (.transmitComplete dt) s = .next (lcService t) :=
  congrArg _ (event_quiet hs e (quiet.trans hs.2.symm))

end

/-- Settles O12: by the frame that has gone out and what waits, then the eligible kind and its frame. -/
theorem afterAFrameTheNextGoesOut : Obligations.AfterAFrameTheNextGoesOut := by
  refine ⟨fun dt s x hs locked tx => ?_, fun l code => ?_, fun code n d hd => ?_⟩
  · intro h
    have quiet : h.reports = [] := by simpa [h] using hs.2
    have tx' : h.lc.tx = some x := by simpa [h] using tx
    have locked' : h.lc.locked = true := by simpa [h] using locked
    rw [show s.lc.nextKind = h.lc.nextKind by simp [h], show s.lc.built = h.lc.built by simp [h],
      show s.lc.clearing = h.lc.clearing by simp [h], show s.lc.rx = h.lc.rx by simp [h],
      show s.lc.notices = h.lc.notices by simp [h]]
    have notice : ∀ code, s.lc.notice code = h.lc.notice code := fun _ => by simp [h, Lc.notice]
    simp only [notice]
    refine ⟨fun what => ?_, fun what built code kind => ?_, fun what kind built clearing f rest rx => ?_,
      fun what kind built rx => ?_, fun what kind b built => ?_, fun what built rx code kind => ?_⟩
    · rw [transmitComplete_quiet hs (transmitted_of_clearReply tx' what) rfl, lcService_of_hunting rfl]
      simp [coldStart]
    · rw [transmitComplete_quiet hs (transmitted_of_reply tx' what kind) quiet, lcService_of_tx rfl]
      rfl
    · have taken := (transmitted_of_taking tx' what kind).trans
        (takeWaiting_of_frame (s := h.sent) rfl built rfl clearing rx)
      exact congrArg _ (event_finish hs taken)
    · have idle := (transmitted_of_taking tx' what fun _ => kind).trans (takeWaiting_of_nil (s := h.sent) rx)
      rw [transmitComplete_quiet hs idle quiet, lcService_of_no_kind (s := h.sent) built kind]
      rfl
    · have stands := (transmitted_of_taking tx' what kind).trans (takeWaiting_of_built (s := h.sent) built)
      rw [transmitComplete_quiet hs stands quiet, lcService_of_built (s := h.sent) locked' rfl built]
      rfl
    · have idle := (transmitted_of_taking tx' (by simp [what]) (by simp [what])).trans
        (takeWaiting_of_nil (s := h.sent) rx)
      rw [transmitComplete_quiet hs idle quiet, lcService_of_kind (s := h.sent) locked' rfl built kind]
      rfl
  · intro eligible
    simp only [eligible, ← eligible_iff]
    exact ⟨nextKind_eq_some_iff, nextKind_eq_none_iff⟩
  · simp only [noticeFrame, hd]
    rfl

/-! ## The line's timers (R176 to R178) -/

/-- A timer that has run out by then (log 2). -/
theorem over_elapse {t : Option Nat} {k dt : Nat} (ht : t = some k) (hk : k ≤ dt) :
    Timer.over (Timer.elapse dt t) = true := by
  simp [ht, Timer.elapse, Timer.over, Nat.sub_eq_zero_of_le hk]

/-- A timer's row once its time has run out, whose event hands nothing on (log 2). -/
theorem event_of_due {s : State} {dt : Nat} {due : State → Bool} {f : State → State} (hs : s.awake)
    (run : due (s.elapse dt) = true) (quiet : (f (s.elapse dt)).reports = s.reports) :
    event dt (fun u => if due u then f u else u) s = lcService (f (s.elapse dt)) :=
  event_quiet hs (if_pos run) quiet

/-- Settles O14: the two timers, the frame that leaves no mark, and the free transmitter. -/
theorem lineTimersAndDroppedFrames : Obligations.LineTimersAndDroppedFrames := by
  intro dt s hs h
  have quiet : h.reports = s.reports := by simp [h]
  have line : h.lc = s.lc.elapse dt := elapse_lc_of_on hs.1
  refine ⟨fun k locked collect timer hk => ?_, fun k locked clearing timer hk => ?_, fun cause => ?_,
    fun u => ⟨fun busy => ?_, fun locked tx => ⟨fun b built => ?_, fun built kind => ?_,
      fun code built kind => ?_⟩⟩⟩
  · have due : (h.lc.collect.isSome && Timer.over h.lc.byteTimer) = true := by
      rw [line]
      simpa [Lc.elapse, collect] using over_elapse timer hk
    have row : exec (.interByteTimeout dt) s = .next (lcService (nextTrial h)) :=
      congrArg _ (event_of_due (due := fun u => u.lc.collect.isSome && Timer.over u.lc.byteTimer) hs due quiet)
    rw [row, lcService_of_hunting (by simpa [nextTrial, h] using locked)]
    simp [nextTrial, h]
  · have due : (h.lc.locked && Timer.over h.lc.silence) = true := by
      rw [line]
      simpa [Lc.elapse, locked] using over_elapse timer hk
    have restart : ¬h.lc.clearing = true := by simp [h, clearing]
    have rehunted : rehunt h = h.setLc { h.lc.stopped with notices := h.lc.notices.map Notice.requeue } :=
      if_neg restart
    have row : exec (.silenceTimerExpiry dt) s = .next (lcService (rehunt h)) :=
      congrArg _ (event_of_due (due := fun u => u.lc.locked && Timer.over u.lc.silence) hs due
        (by rw [rehunted]; exact quiet))
    rw [row, rehunted, lcService_of_hunting rfl]
    simp only [h, State.elapse_lc_notices, Lc.stopped, State.elapse_lc_lastRate]
    rfl
  · have passed : exec (.frameDropped dt cause) s = .next (lcService h) :=
      congrArg _ (event_quiet (f := id) hs rfl quiet)
    refine ⟨passed, fun still => passed.trans (congrArg _ ?_)⟩
    rcases still with locked | tx
    · exact lcService_of_hunting (by simpa [h] using locked)
    · obtain ⟨x, hx⟩ := Option.isSome_iff_exists.1 tx
      exact lcService_of_tx (x := x) (by simpa [h] using hx)
  · rcases busy with locked | tx
    · exact lcService_of_hunting locked
    · obtain ⟨x, hx⟩ := Option.ne_none_iff_exists'.1 tx
      exact lcService_of_tx hx
  · exact lcService_of_built locked tx built
  · exact lcService_of_no_kind built kind
  · exact lcService_of_kind locked tx built kind

end Sys2Proof.Machine
end

section
/-! PROOFS. The link in HUNTING: the bytes that make a frame, and what each byte does (R176, R178, R200). -/

namespace Sys2Proof.Machine

/-! ## The bytes collected (R178, R200) -/

section
variable {len : Byte} {rest : List Byte}

theorem collected_of_long (h : 240 < len.toNat) : collected (len :: rest) = .bad := if_pos h

theorem collected_of_short (h : len.toNat ≤ 240) (short : rest.length < len.toNat + 4) :
    collected (len :: rest) = .more := by
  exact (if_neg (Nat.not_lt.2 h)).trans (if_pos short)

/-- Two bytes of a check, more significant byte first. -/
theorem fromBe_pair (c0 c1 : Byte) : fromBe [c0, c1] = c0.toNat * 256 + c1.toNat := by simp [fromBe]

/-- A frame whose bytes have all come stands by its check. -/
theorem collected_of_whole {kind tag c0 c1 : Byte} {payload : List Byte} (hp : payload.length = len.toNat)
    (h : len.toNat ≤ 240) : collected (len :: kind :: tag :: (payload ++ [c0, c1])) =
      if c0.toNat * 256 + c1.toNat = (crc (len :: kind :: tag :: payload)).toNat then
        .frame ⟨kind, tag, payload⟩
      else .bad := by
  have whole : ¬(kind :: tag :: (payload ++ [c0, c1])).length < len.toNat + 4 := by simp [hp]
  refine ((if_neg (Nat.not_lt.2 h)).trans (if_neg whole)).trans ?_
  have spelled : BitVec.ofNat 8 payload.length = len := by rw [hp, BitVec.ofNat_toNat, BitVec.setWidth_eq]
  simp [← hp, Frame.covered, fromBe_pair, spelled]

end

/-! ## What a byte does (R176, R178) -/

section
variable {v : Byte} {fe : Bool} {s : State} {l : List Byte}

theorem firstByte_of_other (h : fe = true ∨ v ≠ 0xA5#8) : firstByte v fe s = nextTrial s := by
  refine if_pos ?_
  rcases h with h | h
  · simp [h]
  · have hv : v.toNat ≠ Config.startValue := fun e => h (BitVec.eq_of_toNat_eq e)
    simp [hv]

theorem firstByte_of_start (h : fe = false) (hv : v = 0xA5#8) :
    firstByte v fe s = s.setLc { s.lc with collect := some [], byteTimer := some 51 } := by
  subst h hv
  rfl

theorem huntTake_of_first (h : s.lc.collect = none) : huntTake v fe s = firstByte v fe s := by
  rw [huntTake, h]

/-- A byte that comes once the byte timer has run out drops the frame first (log 16). -/
theorem huntTake_of_late (h : s.lc.collect.isSome = true) (late : Timer.over s.lc.byteTimer = true) :
    huntTake v fe s = firstByte v fe (nextTrial s) := by
  obtain ⟨l, hl⟩ := Option.isSome_iff_exists.1 h
  rw [huntTake, hl]
  exact if_pos late

section
variable (collect : s.lc.collect = some l) (timely : Timer.over s.lc.byteTimer = false)
include collect timely

theorem huntTake_of_error : huntTake v true s = nextTrial s := by
  rw [huntTake, collect]
  simp [timely]

theorem huntTake_of_more (h : collected (l ++ [v]) = .more) : huntTake v false s =
    s.setLc { s.lc with collect := some (l ++ [v]), byteTimer := some 51 } := by
  rw [huntTake, collect]
  simp only [timely, h]
  rfl

theorem huntTake_of_bad (h : collected (l ++ [v]) = .bad) : huntTake v false s = nextTrial s := by
  rw [huntTake, collect]
  simp only [timely, h]
  rfl

theorem huntTake_of_frame {f : Frame} (h : collected (l ++ [v]) = .frame f) :
    huntTake v false s = lockOn f s := by
  rw [huntTake, collect]
  simp only [timely, h]
  rfl

end

/-- A byte in HUNTING, received by then (R176). -/
theorem huntByte_finish {dt : Nat} {t : State} (hs : s.awake) (hunting : s.lc.locked = false)
    (e : huntTake v fe (s.elapse dt) = t) : exec (.huntByte dt v fe) s = .next (finish t) := by
  have hunts : huntByte v fe (s.elapse dt) = huntTake v fe (s.elapse dt) := if_neg (by simp [hunting])
  exact congrArg _ (event_finish hs (hunts.trans e))

/-- And one after which the link still hunts: nothing goes out. -/
theorem huntByte_hunting {dt : Nat} {t : State} (hs : s.awake) (hunting : s.lc.locked = false)
    (e : huntTake v fe (s.elapse dt) = t) (quiet : t.reports = s.reports)
    (still : t.lc.locked = s.lc.locked) : exec (.huntByte dt v fe) s = .next t := by
  rw [huntByte_finish hs hunting e, finish_of_nil (quiet.trans hs.2),
    lcService_of_hunting (still.trans hunting)]

end

/-- Settles O13: a byte by what is collected and by the byte timer, then what the bytes make, then the
check. -/
theorem huntingTakesBytes : Obligations.HuntingTakesBytes := by
  refine ⟨fun dt v fe s hs hunting => ?_, fun len rest => ?_, fun l b => ?_⟩
  · intro h c moved
    have quiet : h.reports = s.reports := by simp [h]
    have still : h.lc.locked = s.lc.locked := by simp [h]
    have collect' : h.lc.collect = s.lc.collect := by simp [h]
    have timer : h.lc.byteTimer = Timer.elapse dt s.lc.byteTimer :=
      congrArg Lc.byteTimer (elapse_lc_of_on hs.1)
    have trial : h.lc.trial = s.lc.trial := by simp [h]
    have dropped : nextTrial h = moved := by simp only [nextTrial, trial, moved]
    have moves (e : huntTake v fe h = nextTrial h) : c = .next moved :=
      dropped ▸ huntByte_hunting hs hunting e quiet still
    refine ⟨fun empty other => ?_, fun empty good start => ?_, fun l held timely => ⟨fun error => ?_,
      fun good => ⟨fun more => ?_, fun bad => ?_, fun f whole => ?_⟩⟩, fun held late => ⟨fun other => ?_,
      fun good start => ?_⟩⟩
    · exact moves ((huntTake_of_first (collect'.trans empty)).trans (firstByte_of_other other))
    · exact huntByte_hunting hs hunting ((huntTake_of_first (collect'.trans empty)).trans
        (firstByte_of_start good start)) quiet still
    · subst error
      exact moves (huntTake_of_error (collect'.trans held) (timer ▸ timely))
    · subst good
      exact huntByte_hunting hs hunting
        (huntTake_of_more (collect'.trans held) (timer ▸ timely) more) quiet still
    · subst good
      exact moves (huntTake_of_bad (collect'.trans held) (timer ▸ timely) bad)
    · subst good
      have locks := huntByte_finish hs hunting
        (huntTake_of_frame (collect'.trans held) (timer ▸ timely) whole)
      rw [lockOn, show (s.elapse dt).lc.trial = s.lc.trial from trial] at locks
      exact locks
    · have first : huntTake v fe h = nextTrial moved :=
        (huntTake_of_late (collect' ▸ held) (timer ▸ late)).trans
          ((firstByte_of_other other).trans (congrArg nextTrial dropped))
      exact huntByte_hunting hs hunting first quiet still
    · have first := (huntTake_of_late (collect' ▸ held) (timer ▸ late)).trans
        (firstByte_of_start (s := nextTrial h) good start)
      rw [dropped] at first
      exact huntByte_hunting hs hunting first quiet still
  · refine ⟨rfl, collected_of_long, collected_of_short, ?_⟩
    rintro kind tag c0 c1 payload hp fits rfl sound
    exact ⟨fun h => (collected_of_whole hp fits).trans (if_pos h),
      fun h => (collected_of_whole hp fits).trans (if_neg h)⟩
  · exact ⟨rfl, List.foldl_append ..⟩

end Sys2Proof.Machine
end

section
/-! PROOFS. Parameters: SET PARAMETER, the wear limits and the string length (R50, R51, R182, R188). -/

namespace Sys2Proof.Machine

/-! ## What SET PARAMETER stores (R182, R188) -/

/-- The range of a parameter is not empty (12.2). -/
theorem paramRange_low_le_high {n : Nat} {r : PRange} (h : paramRange n = some r) : r.low ≤ r.high := by
  have ordered : ∀ r ∈ paramTable, r.low ≤ r.high := by decide
  unfold paramRange at h
  split at h
  · cases h
  · exact ordered r (List.mem_of_getElem? h)

/-- The reply tells a value in range from one that was clamped. -/
theorem paramReply_clamp {r : PRange} (h : r.low ≤ r.high) (v : Int) : paramReply v (r.clamp v) =
    if r.low ≤ v ∧ v ≤ r.high then .ok (beInt 4 v) else .clamp (beInt 4 (r.clamp v)) := by
  have stays : v = r.clamp v ↔ r.low ≤ v ∧ v ≤ r.high := by
    unfold PRange.clamp
    omega
  simp only [paramReply, stays]
  split
  · next hv => rw [← stays.2 hv]
  · rfl

section
variable {n : Nat} {v : Int} {s : State}

theorem ownSetParameter_of_none (h : paramRange n = none) : ownSetParameter n v s = refused .range s := by
  rw [ownSetParameter, h]

/-- A parameter that is none of the three presets: its value is stored, with what that causes at once. -/
theorem ownSetParameter_of_stored {r : PRange} (h : paramRange n = some r) (hn : n ∉ [17, 21, 24]) :
    ownSetParameter n v s =
      (afterStore n (s.param n) (r.clamp v) (s.setParams (s.params.set (n - 1) (r.clamp v))),
        paramReply v (r.clamp v)) := by
  simp only [List.mem_cons, List.not_mem_nil, or_false, not_or] at hn
  simp only [ownSetParameter, h, hn, if_false]
  rfl

theorem afterStore_of_plain {old new : Int} (hn : n ∉ [18, 19, 20]) : afterStore n old new s = s := by
  simp only [List.mem_cons, List.not_mem_nil, or_false, not_or] at hn
  simp [afterStore, hn]

/-- A wear limit that falls tests every entry (R50). -/
theorem afterStore_of_limit {old new : Int} (hn : n = 19 ∨ n = 20) :
    afterStore n old new s = if new < old then testAllLimits s else s := by
  rcases hn with rfl | rfl <;> simp [afterStore]

end

/-! ## The wear limits (R50) -/

/-- A rod that meets a limit and is neither RETIRED nor worn. -/
def Rod.meetsLimit (conns dist : Nat) (x : Rod) : Bool :=
  x.loc != .retired && !x.worn && (conns ≤ x.conns || dist ≤ x.dist)

/-- That a rod is worn by a change of a limit. -/
def Rod.limitNotice (x : Rod) : Detail := .rodWorn x.serial .limitChange x.conns x.dist

/-- A rod after the test against both limits. -/
def Rod.limited (conns dist : Nat) (x : Rod) : Rod :=
  if x.meetsLimit conns dist then { x with worn := true } else x

/-- The registry of a state written. -/
def State.setRegistry (l : List (Option Rod)) (s : State) : State :=
  s.setRrc { s.rrc with registry := l }

section
variable {s : State} {i : Nat}

theorem testLimits_of_free (h : s.rrc.rod i = none) : testLimits s i = s := by
  rw [testLimits, h]

theorem testLimits_of_rod {x : Rod} (h : s.rrc.rod i = some x) : testLimits s i =
    if x.meetsLimit s.pConnLimit (s.pDistLimitM * 1000) then
      (s.rodPut i { x with worn := true }).raise x.limitNotice
    else s := by
  rw [testLimits, h]
  simp only [wearOut_of_rod h, Rod.meetsLimit]
  rfl

end

/-- The entries from one on tested in ascending number: their rods are worn, and their notices are raised in
that order. -/
theorem foldl_testLimits (todo : List (Option Rod)) (past : List (Option Rod)) (s : State)
    (h : s.rrc.registry = past ++ todo) :
    (List.range' past.length todo.length).foldl testLimits s =
      ((todo.filterMap id).filter (Rod.meetsLimit s.pConnLimit (s.pDistLimitM * 1000))).foldl
        (fun t x => t.raise x.limitNotice)
        (s.setRegistry (past ++ todo.map (Option.map (Rod.limited s.pConnLimit (s.pDistLimitM * 1000))))) := by
  induction todo generalizing past s with
  | nil =>
    have same : s.setRegistry past = s := by rw [State.setRegistry, ← (h.trans (List.append_nil _))]; rfl
    simpa using same.symm
  | cons o todo ih =>
    have entry : s.rrc.rod past.length = o := by simp [Rrc.rod, h]
    have next (t : State) (y : Option Rod) (ht : t.rrc.registry = (past ++ [y]) ++ todo) :=
      ih (past ++ [y]) t ht
    simp only [List.length_append, List.length_singleton] at next
    rw [List.length_cons, List.range'_succ, List.foldl_cons]
    cases o with
    | none =>
      rw [testLimits_of_free entry, next s none (by simp [h])]
      simp
    | some x =>
      rw [testLimits_of_rod entry]
      by_cases hx : x.meetsLimit s.pConnLimit (s.pDistLimitM * 1000) = true
      · rw [if_pos hx, next _ (some { x with worn := true }) (by simp [State.rodPut, h])]
        simp [hx, Rod.limited]
        rfl
      · rw [if_neg hx, next s (some x) (by simp [h])]
        simp [hx, Rod.limited]

/-- Every entry of the registry is tested (R50). -/
theorem testAllLimits_eq {s : State} (h : s.rrc.registry.length = 160) : testAllLimits s =
    ((s.rrc.registry.filterMap id).filter (Rod.meetsLimit s.pConnLimit (s.pDistLimitM * 1000))).foldl
      (fun t x => t.raise x.limitNotice)
      (s.setRegistry
        (s.rrc.registry.map (Option.map (Rod.limited s.pConnLimit (s.pDistLimitM * 1000))))) := by
  have tested := foldl_testLimits s.rrc.registry [] s rfl
  rw [List.length_nil, h, ← List.range_eq_range'] at tested
  exact tested

@[simp] theorem testLimits_offBuilder (s : State) (i : Nat) :
    (testLimits s i).offBuilder = s.offBuilder := by
  fun_cases testLimits s i <;> simp

theorem testAllLimits_offBuilder (s : State) : (testAllLimits s).offBuilder = s.offBuilder :=
  foldl_leaves s State.offBuilder testLimits_offBuilder allEntries

/-! ## The string length (R51, R105) -/

theorem stringLength_eq (s : State) : s.stringLength = s.pBottomAssembly + (s.rrc.string.map
    (fun p => match s.rrc.rod p.1 with | some x => x.length | none => 0)).sum := by
  unfold State.stringLength
  congr 2
  refine List.map_congr_left fun p _ => ?_
  cases s.rrc.rod p.1 <;> rfl

theorem deliverLength_offBuilder (s : State) : (deliverLength s).offBuilder = s.offBuilder := by
  fun_cases deliverLength s <;> simp

/-- A value stored, with what an operation of the blocks then does, is answered (R180, R188). -/
theorem requestRow_stored {s : State} {dt : Nat} {tag n : Byte} {v : BitVec 32} {l : List Int}
    {f : State → State} {rep : Reply} (hs : s.ready) (off : ∀ u, (f u).offBuilder = u.offBuilder)
    (keeps : ∀ u, Keeps u (f u))
    (e : ownSetParameter n.toNat v.toInt (s.heard dt) = (f ((s.heard dt).setParams l), rep)) :
    requestRow dt tag (.setParameter n v) s =
      (f ((s.heard dt).setParams l)).answering tag (.setParameter n v) rep :=
  requestRow_of_own hs e ((reports_of_offBuilder (off _)).trans (heard_reports.trans hs.2.1))
    ((keeps _).free (heard_free hs.2.2))

/-- Settles O17: the refusal and the plain parameters; the presets' rows and what the others cause at once; the
test of every entry; and the delivery of the string length. -/
theorem setParameterStoresAndActs : Obligations.SetParameterStoresAndActs := by
  refine ⟨fun dt tag n v s hs => ⟨fun unknown => ?_, fun r range plain => ?_⟩,
    fun dt tag v s => ⟨⟨rfl, rfl, rfl⟩, fun hs => ?_⟩, fun u hu => ?_, fun u => ?_⟩
  · exact congrArg _ (requestRow_unchanged (r := .setParameter n v) hs (ownSetParameter_of_none unknown))
  · intro x
    have code : n.toNat ∉ [17, 18, 19, 20, 21, 24] := by simpa [← BitVec.toNat_inj] using plain
    have other {l : List Nat} (hl : l ⊆ [17, 18, 19, 20, 21, 24]) : n.toNat ∉ l := fun hn => code (hl hn)
    have owner := ownSetParameter_of_stored (v := v.toInt) (s := s.heard dt) range (other (by decide))
    rw [afterStore_of_plain (other (by decide)), paramReply_clamp (paramRange_low_le_high range),
      heard_params] at owner
    exact congrArg _ (requestRow_stored (f := id) hs (fun _ => rfl) Keeps.refl owner)
  · intro h rep
    have params : h.params = s.params := heard_params
    have limit {n : Byte} {r : PRange} (range : paramRange n.toNat = some r) (hn : n.toNat = 19 ∨ n.toNat = 20) :
        requestRow dt tag (.setParameter n v) s = _ :=
      requestRow_stored (f := fun u => if r.clamp v.toInt < s.param n.toNat then testAllLimits u else u) hs
        (fun u => by split; exacts [testAllLimits_offBuilder u, rfl])
        (fun u => by split; exacts [testAllLimits_keeps (.refl u), .refl u])
        ((ownSetParameter_of_stored range (by rcases hn with hn | hn <;> simp [hn])).trans
          (by rw [afterStore_of_limit hn, State.param, heard_params]; rfl))
    refine ⟨?_, ?_, ?_⟩
    · intro x
      have owner : ownSetParameter 18 v.toInt h = (deliverLength (h.setParams (s.params.set 17 x)), rep x) :=
        params ▸ ownSetParameter_of_stored (r := ⟨500, 30000, 3000⟩) rfl (by decide)
      exact congrArg _ (requestRow_stored (n := 18) hs deliverLength_offBuilder
        (fun u => deliverLength_keeps (.refl u)) owner)
    · exact congrArg _ (limit (n := 19) (r := ⟨50, 2000, 400⟩) rfl (.inl rfl))
    · exact congrArg _ (limit (n := 20) (r := ⟨1000, 200000, 60000⟩) rfl (.inr rfl))
  · intro wears
    have meets (x : Rod) : x.meetsLimit u.pConnLimit (u.pDistLimitM * 1000) = decide (wears x) := by
      rw [Bool.eq_iff_iff]
      simp [Rod.meetsLimit, wears, and_assoc]
    have limited (x : Rod) : x.limited u.pConnLimit (u.pDistLimitM * 1000) =
        if wears x then { x with worn := true } else x := by
      simp only [Rod.limited, meets, decide_eq_true_eq]
    rw [testAllLimits_eq hu, funext meets, funext limited]
    rfl
  · intro n
    rw [show n = u.stringLength from (stringLength_eq u).symm]
    exact ⟨fun same => if_pos same, fun changed => if_neg changed⟩

end Sys2Proof.Machine
end

section
/-! PROOFS. Requests as frames: the fields that a payload carries, and that a request is read back from its
frame (R178, R200 to R203). -/

namespace Sys2Proof.Machine

/-! ## Numbers in bytes (R201) -/

@[simp] theorem length_be (w n : Nat) : (be w n).length = w := by
  induction w with
  | zero => rfl
  | succ w ih => rw [be, List.length_cons, ih]

/-- Bytes after a number already spelled join it below. -/
theorem foldl_fromBe (l : List Byte) (n : Nat) :
    l.foldl (fun n b => n * 256 + b.toNat) n = n * 256 ^ l.length + fromBe l := by
  induction l generalizing n with
  | nil => simp [fromBe]
  | cons b l ih =>
    rw [fromBe, List.foldl_cons, List.foldl_cons, ih, ih (0 * 256 + b.toNat), List.length_cons, pow_succ]
    ring

/-- A number's bytes spell it, as far as they reach. -/
theorem fromBe_be (w n : Nat) : fromBe (be w n) = n % 256 ^ w := by
  induction w with
  | zero => simp [be, fromBe, Nat.mod_one]
  | succ w ih =>
    have head : (BitVec.ofNat 8 (n / 256 ^ w)).toNat = n / 256 ^ w % 256 := BitVec.toNat_ofNat ..
    rw [be, fromBe, List.foldl_cons, foldl_fromBe, ih, length_be, head, pow_succ, Nat.mod_mul,
      Nat.zero_mul, Nat.zero_add, Nat.mul_comm, Nat.add_comm]

/-! ## Fields of a payload (R201) -/

section
variable {w n i k y : Nat} {x : BitVec w} {p : List Byte}

/-- The bytes of a number before an offset are passed over. -/
theorem drop_be_append (h : k ≤ i) : (be k y ++ p).drop i = p.drop (i - k) := by
  rw [List.drop_append, List.drop_of_length_le (by simpa using h), length_be, List.nil_append]

/-- The field of a number's own width reads that number. -/
theorem field_be_append (h : w = 8 * n) : field w n (be n x.toNat ++ p) 0 = x := by
  have whole : 256 ^ n = 2 ^ w := by rw [h, pow_mul]; rfl
  rw [field, List.drop_zero, List.take_left' (length_be ..), fromBe_be, whole,
    Nat.mod_eq_of_lt x.isLt, BitVec.ofNat_toNat, BitVec.setWidth_eq]

theorem field_be (h : w = 8 * n) : field w n (be n x.toNat) 0 = x := by
  simpa using field_be_append (p := []) h

theorem field_append_of_le (h : k ≤ i) : field w n (be k y ++ p) i = field w n p (i - k) := by
  rw [field, drop_be_append h, field]

end

/-! ## Lists of fields (R202) -/

/-- Entries of `c` bytes each, spelled one after another from an offset on, are read back in order. -/
theorem map_range_read {α : Type} {f : α → List Byte} {read : List Byte → Nat → α} {c : Nat}
    (size : ∀ a, (f a).length = c) (reads : ∀ a p, read (f a ++ p) 0 = a)
    (shift : ∀ p i, read p i = read (p.drop i) 0) {p rest : List Byte} (l : List α) {off : Nat}
    (h : p.drop off = l.flatMap f ++ rest) :
    (List.range l.length).map (fun i => read p (off + c * i)) = l := by
  induction l generalizing off with
  | nil => rfl
  | cons a l ih =>
    rw [List.flatMap_cons, List.append_assoc] at h
    have behind : p.drop (off + c) = l.flatMap f ++ rest := by
      rw [← List.drop_drop, h, List.drop_left' (size a)]
    have later : ∀ i, off + c * (i + 1) = off + c + c * i := fun i => by ring
    rw [List.length_cons, List.range_succ_eq_map, List.map_cons, List.map_map, Nat.mul_zero, Nat.add_zero,
      shift, h, reads]
    simp only [Function.comp_def, Nat.succ_eq_add_one, later]
    rw [ih behind]

/-- Entries of `c` bytes each take `c` bytes for each entry. -/
theorem length_flatMap_const {α : Type} {f : α → List Byte} {c : Nat} (size : ∀ a, (f a).length = c)
    (l : List α) : (l.flatMap f).length = c * l.length := by
  simp [List.length_flatMap, size, Nat.mul_comm]

theorem field_shift (w n : Nat) (p : List Byte) (i j : Nat) : field w n p (i + j) = field w n (p.drop i) j := by
  rw [field, field, List.drop_drop]

/-! ## WRITE TARIFF (R202, R203) -/

/-- A rate, a band and an item as WRITE TARIFF spells them. -/
def rateBytes (r : BitVec 24) : List Byte := be 3 r.toNat
def bandBytes (b : BitVec 24 × BitVec 24) : List Byte := be 3 b.1.toNat ++ be 3 b.2.toNat
def itemBytes (i : UnitName × BitVec 24) : List Byte := be 6 i.1.toNat ++ be 3 i.2.toNat

theorem length_rateBytes (r : BitVec 24) : (rateBytes r).length = 3 := length_be ..
theorem length_bandBytes (b : BitVec 24 × BitVec 24) : (bandBytes b).length = 6 := by simp [bandBytes]
theorem length_itemBytes (i : UnitName × BitVec 24) : (itemBytes i).length = 9 := by simp [itemBytes]

section
variable {t : TariffWire}

/-- A tariff's payload: its head, its rates, its bands and its items. -/
theorem tariffPayload_eq : tariffPayload t =
    be 1 t.id.toNat ++ (be 12 t.name.toNat ++ (be 1 t.bandCount.toNat ++ (be 2 t.itemSet.toNat
      ++ (t.rates.flatMap rateBytes ++ (t.bands.flatMap bandBytes ++ t.items.flatMap itemBytes))))) := by
  simp only [tariffPayload, List.append_assoc]
  rfl

theorem length_tariffPayload : (tariffPayload t).length =
    16 + 3 * t.rates.length + 6 * t.bands.length + 9 * t.items.length := by
  simp only [tariffPayload_eq, List.length_append, length_be, length_flatMap_const length_rateBytes,
    length_flatMap_const length_bandBytes, length_flatMap_const length_itemBytes]
  omega

/-- The rates stand at byte 16, the bands behind the rates and the items behind the bands. -/
theorem tariffPayload_drop_rates : (tariffPayload t).drop 16 =
    t.rates.flatMap rateBytes ++ (t.bands.flatMap bandBytes ++ t.items.flatMap itemBytes) := by
  simp [tariffPayload_eq, drop_be_append]

theorem tariffPayload_drop_bands : (tariffPayload t).drop (16 + 3 * t.rates.length) =
    t.bands.flatMap bandBytes ++ t.items.flatMap itemBytes := by
  rw [← List.drop_drop, tariffPayload_drop_rates, List.drop_left' (length_flatMap_const length_rateBytes _)]

theorem tariffPayload_drop_items :
    (tariffPayload t).drop (16 + 3 * t.rates.length + 6 * t.bands.length) =
      t.items.flatMap itemBytes ++ [] := by
  rw [← List.drop_drop, tariffPayload_drop_bands, List.drop_left' (length_flatMap_const length_bandBytes _),
    List.append_nil]

/-! The fields of the head are read back, and then each list. -/

theorem tariffPayload_id : u8 (tariffPayload t) 0 = t.id := by
  simp [tariffPayload_eq, u8, field_be_append]

theorem tariffPayload_name : field 96 12 (tariffPayload t) 1 = t.name := by
  simp [tariffPayload_eq, field_append_of_le, field_be_append]

theorem tariffPayload_bandCount : u8 (tariffPayload t) 13 = t.bandCount := by
  simp [tariffPayload_eq, u8, field_append_of_le, field_be_append]

theorem tariffPayload_itemSet : u16 (tariffPayload t) 14 = t.itemSet := by
  simp [tariffPayload_eq, u16, field_append_of_le, field_be_append]

theorem tariffPayload_rates : (List.range t.rates.length).map
    (fun i => u24 (tariffPayload t) (16 + 3 * i)) = t.rates :=
  map_range_read length_rateBytes (fun _ _ => field_be_append rfl) (fun p i => field_shift 24 3 p i 0)
    t.rates tariffPayload_drop_rates

theorem tariffPayload_bands : (List.range t.bands.length).map
    (fun i => (u24 (tariffPayload t) (16 + 3 * t.rates.length + 6 * i),
      u24 (tariffPayload t) (16 + 3 * t.rates.length + 6 * i + 3))) = t.bands := by
  refine map_range_read (read := fun p i => (u24 p i, u24 p (i + 3))) length_bandBytes (fun b p => ?_)
    (fun p i => Prod.ext (field_shift 24 3 p i 0) (field_shift 24 3 p i 3)) t.bands tariffPayload_drop_bands
  simp [u24, bandBytes, field_append_of_le, field_be_append]

theorem tariffPayload_items : (List.range t.items.length).map
    (fun i => (u48 (tariffPayload t) (16 + 3 * t.rates.length + 6 * t.bands.length + 9 * i),
      u24 (tariffPayload t) (16 + 3 * t.rates.length + 6 * t.bands.length + 9 * i + 6))) = t.items := by
  refine map_range_read (read := fun p i => (u48 p i, u24 p (i + 6))) length_itemBytes (fun b p => ?_)
    (fun p i => Prod.ext (field_shift 48 6 p i 0) (field_shift 24 3 p i 6)) t.items tariffPayload_drop_items
  simp [u24, u48, itemBytes, field_append_of_le, field_be_append]

/-- What a tariff's well-formedness says of its lists (R202, R203). -/
theorem tariffWf_iff : tariffWf t = true ↔ t.rates.length = 10 ∧ t.bands.length = t.bandCount.toNat
    ∧ t.items.length = itemCount t.itemSet ∧ tariffLength t.bandCount.toNat t.itemSet ≤ 240 := by
  simp only [tariffWf, Bool.and_eq_true, beq_iff_eq, decide_eq_true_eq, and_assoc]
  rfl

/-- A tariff whose counts agree with its lists has the length that they give, and is read back. -/
theorem length_tariffPayload_of_wf (h : tariffWf t = true) :
    (tariffPayload t).length = tariffLength t.bandCount.toNat t.itemSet := by
  obtain ⟨rates, bands, items, -⟩ := tariffWf_iff.1 h
  rw [length_tariffPayload, rates, bands, items, tariffLength]

theorem readTariffWire_tariffPayload (h : tariffWf t = true) : readTariffWire (tariffPayload t) = t := by
  obtain ⟨rates, bands, items, -⟩ := tariffWf_iff.1 h
  have rates' := tariffPayload_rates (t := t)
  have bands' := tariffPayload_bands (t := t)
  have items' := tariffPayload_items (t := t)
  rw [rates] at rates' bands' items'
  rw [bands] at bands' items'
  rw [items] at items'
  unfold readTariffWire
  simp only [tariffPayload_id, tariffPayload_name, tariffPayload_bandCount, tariffPayload_itemSet]
  rw [rates', bands', items']

end

/-! ## Every request -/

/-- A well-formed request is read back from its kind and payload (R202, R203). -/
theorem decodeRequest_encodeRequest (r : Request) (h : requestWf r = true) :
    decodeRequest (encodeRequest r).1 (encodeRequest r).2 = .ok r := by
  cases r with
  | writeTariff t =>
    have wf : tariffWf t = true := h
    have long : 46 ≤ tariffLength t.bandCount.toNat t.itemSet := by
      rw [tariffLength]
      omega
    simp [encodeRequest, decodeRequest, tariffPayload_bandCount, tariffPayload_itemSet,
      readTariffWire_tariffPayload wf, long, length_tariffPayload_of_wf wf]
  | _ =>
    simp [encodeRequest, decodeRequest, fixed, u8, u16, u24, u32, u48, field_be, field_be_append,
      field_append_of_le]

/-- A well-formed request fits a frame (R178). -/
theorem length_encodeRequest_le (r : Request) (h : requestWf r = true) :
    (encodeRequest r).2.length ≤ 240 := by
  cases r with
  | writeTariff t =>
    obtain ⟨-, -, -, fits⟩ := tariffWf_iff.1 h
    exact (length_tariffPayload_of_wf h).le.trans fits
  | _ => simp [encodeRequest]

/-- A request's kind is one of the 47, whose reply's kind is 80H more (R200, R203). -/
theorem replyKind_encodeRequest (r : Request) : replyKind (encodeRequest r).1 = (encodeRequest r).1 + 0x80#8 := by
  cases r <;> rfl

end Sys2Proof.Machine
end

section
/-! PROOFS. Requests as they arrive: what their owners leave of the line, and the taking, the waiting and the
dropping of a request (R176, R177, R179, R180). -/

namespace Sys2Proof.Machine

/-! ## What the owners of the requests leave of the line

No owner begins or ends a frame, builds a reply, or touches the frames that wait: of the link they change the
notice kinds, the mask and the mark of CLEAR ALL alone. -/

/-- The link without the notice kinds, the mask and the mark of CLEAR ALL. -/
def Lc.traffic (l : Lc) : Lc := { l with notices := [], mask := 0, clearing := false }

theorem Keeps.traffic {s t : State} (h : Keeps s t) : t.lc.traffic = s.lc.traffic := by
  have e := congrArg (fun l : Lc => { l with mask := 0, clearing := false }) h.line
  exact e

theorem tx_of_traffic {l m : Lc} (h : l.traffic = m.traffic) : l.tx = m.tx := by
  have e := congrArg Lc.tx h
  exact e

section
variable {s : State}

theorem afterStore_traffic (n : Nat) (old new : Int) (s : State) :
    (afterStore n old new s).lc.traffic = s.lc.traffic := by
  fun_cases afterStore with
  | case1 => exact (deliverLength_keeps (.refl s)).traffic
  | case2 => exact (testAllLimits_keeps (.refl s)).traffic
  | case3 => rfl

theorem ownHeadPreset_traffic {v : Int} : (ownHeadPreset v s).1.lc.traffic = s.lc.traffic := by
  fun_cases ownHeadPreset with
  | case1 => rfl
  | case2 _ x t u => exact (settle_keeps (hsHead_keeps (dibEncoder_keeps (.refl u)))).traffic

theorem ownIndexPreset_traffic {v : Int} : (ownIndexPreset v s).1.lc.traffic = s.lc.traffic := by
  fun_cases ownIndexPreset <;> rfl

theorem ownDepthOffset_traffic {v : Int} : (ownDepthOffset v s).1.lc.traffic = s.lc.traffic := by
  fun_cases ownDepthOffset with
  | case1 => exact (recompute_keeps (Keeps.refl s).setDib).traffic
  | case2 => rfl

theorem ownSetParameter_traffic {n : Nat} {v : Int} :
    (ownSetParameter n v s).1.lc.traffic = s.lc.traffic := by
  fun_cases ownSetParameter with
  | case1 => rfl
  | case2 => exact ownHeadPreset_traffic
  | case3 => exact ownIndexPreset_traffic
  | case4 => exact ownDepthOffset_traffic
  | case5 => exact afterStore_traffic ..

theorem ownSetPump_traffic {pump : Byte} {d e : Nat} :
    (ownSetPump pump d e s).1.lc.traffic = s.lc.traffic := by
  fun_cases ownSetPump <;> rfl

theorem ownAckNotices_traffic {kinds : KindSet} :
    (ownAckNotices kinds s).1.lc.traffic = s.lc.traffic := by
  fun_cases ownAckNotices with
  | case1 t u =>
    show (if _ then _ else _ : State).lc.traffic = _
    split
    · exact (clearGroupFlag_keeps (.refl t)).traffic
    · rfl

theorem ownClearAll_traffic : (ownClearAll s).1.lc.traffic = s.lc.traffic := by
  fun_cases ownClearAll <;> rfl

theorem ownSetClock_traffic {second : Nat} : (ownSetClock second s).1.lc.traffic = s.lc.traffic := by
  fun_cases ownSetClock <;> rfl

theorem ownSetWatch_traffic {sel pat : SwitchSet} :
    (ownSetWatch sel pat s).1.lc.traffic = s.lc.traffic := by
  have k : Keeps s (writeGroup .g3 sel pat s).1 := writeGroup_fst (.refl s)
  show (if _ then _ else _ : State).lc.traffic = _
  split
  · exact k.raise.traffic
  · exact k.traffic

theorem ownDeclareAddition_traffic {v : Int} :
    (ownDeclareAddition v s).1.lc.traffic = s.lc.traffic := by
  fun_cases ownDeclareAddition with
  | case1 | case2 => rfl
  | case3 => exact (declareVolume_keeps (.refl s)).traffic

theorem ownReadBalance_traffic {part : Nat} : (ownReadBalance part s).1.lc.traffic = s.lc.traffic := by
  fun_cases ownReadBalance <;> rfl

theorem ownAcceptLatch_traffic {code : Byte} : (ownAcceptLatch code s).1.lc.traffic = s.lc.traffic := by
  fun_cases ownAcceptLatch with
  | case1 | case4 => rfl
  | case2 | case3 => exact (settle_keeps (clearLatch_keeps (.refl s))).traffic

theorem ownEnterWatch_traffic : (ownEnterWatch s).1.lc.traffic = s.lc.traffic := by
  fun_cases ownEnterWatch with
  | case1 | case3 => rfl
  | case2 => exact (settle_keeps (enterWatch_keeps (.refl s))).traffic

theorem ownLeaveWatch_traffic : (ownLeaveWatch s).1.lc.traffic = s.lc.traffic := by
  fun_cases ownLeaveWatch with
  | case1 => exact (settle_keeps (leaveWatch_keeps (.refl s))).traffic
  | case2 => rfl

theorem ownRegisterRod_traffic {x : Serial} {len cls : Nat} :
    (ownRegisterRod x len cls s).1.lc.traffic = s.lc.traffic := by
  fun_cases ownRegisterRod <;> rfl

theorem ownRetireRod_traffic {x : Serial} : (ownRetireRod x s).1.lc.traffic = s.lc.traffic := by
  fun_cases ownRetireRod <;> rfl

theorem ownLoadSlot_traffic {x : Serial} {named : Option Nat} :
    (ownLoadSlot x named s).1.lc.traffic = s.lc.traffic := by
  fun_cases ownLoadSlot with
  | case1 | case2 | case3 | case4 | case5 => rfl
  | case6 => exact (beginLoader_keeps ..).traffic

theorem ownUnloadSlot_traffic {n : Nat} : (ownUnloadSlot n s).1.lc.traffic = s.lc.traffic := by
  fun_cases ownUnloadSlot with
  | case1 | case2 | case3 | case4 => rfl
  | case5 => exact (beginLoader_keeps ..).traffic

theorem ownPlaceRod_traffic {d : Byte} : (ownPlaceRod d s).1.lc.traffic = s.lc.traffic := by
  fun_cases ownPlaceRod with
  | case4 | case9 => exact (armEmptied_keeps (.refl (s.setRrc _))).traffic
  | case7 => exact (armEmptied_keeps (deliverLength_keeps (.refl (s.setRrc _)))).traffic
  | case1 | case2 | case3 | case5 | case6 | case8 => rfl

theorem startReply_traffic {op : Op} {slot rod : Nat} {trip : Bool} :
    (startReply op slot rod trip s).1.lc.traffic = s.lc.traffic :=
  (settle_keeps (startOp_keeps (.refl (s.setRrc _)))).traffic

theorem takeOperation_traffic {op : Op} {named : Option Nat} :
    (takeOperation op named s).1.lc.traffic = s.lc.traffic := by
  fun_cases takeOperation with
  | case1 | case2 | case3 => rfl
  | case4 => exact startReply_traffic

theorem ownStartTrip_traffic {d : Byte} {n : Nat} : (ownStartTrip d n s).1.lc.traffic = s.lc.traffic := by
  fun_cases ownStartTrip with
  | case1 | case2 | case3 | case4 | case5 => rfl
  | case6 => exact startReply_traffic

theorem ownStopTrip_traffic : (ownStopTrip s).1.lc.traffic = s.lc.traffic := by
  fun_cases ownStopTrip with
  | case1 | case3 => rfl
  | case2 => exact (endTrip_keeps (.refl s)).traffic

theorem ownResume_traffic : (ownResume s).1.lc.traffic = s.lc.traffic := by
  fun_cases ownResume with
  | case1 => exact (settle_keeps (resumeOp_keeps (.refl s))).traffic
  | case3 => exact (settle_keeps (tripNext_keeps (clearStopFlags_keeps (.refl s)))).traffic
  | case2 | case4 => rfl

theorem ownAbort_traffic : (ownAbort s).1.lc.traffic = s.lc.traffic := by
  fun_cases ownAbort with
  | case1 => rfl
  | case2 => exact (settle_keeps (abortOp_keeps (.refl s))).traffic
  | case3 => exact (endTrip_keeps (.refl s)).traffic

theorem ownManualMove_traffic {fn d : Byte} {ms : Nat} :
    (ownManualMove fn d ms s).1.lc.traffic = s.lc.traffic := by
  fun_cases ownManualMove with
  | case5 => exact (settle_keeps (requestMotion_keeps (.refl s))).traffic
  | case1 | case2 | case3 | case4 | case6 => rfl

theorem ownDiverter_traffic {d : Byte} : (ownDiverter d s).1.lc.traffic = s.lc.traffic := by
  fun_cases ownDiverter with
  | case1 | case2 | case3 => rfl
  | case4 => exact (settle_keeps (requestMotion_keeps (.refl s))).traffic

theorem ownMarkInterval_traffic : (ownMarkInterval s).1.lc.traffic = s.lc.traffic := by
  fun_cases ownMarkInterval with
  | case6 => exact (closeAtMark_keeps (by assumption) (.refl s)).traffic
  | case1 | case2 | case3 | case4 | case5 => rfl

theorem ownAnnotate_traffic {number : Nat} {n : Note} :
    (ownAnnotate number n s).1.lc.traffic = s.lc.traffic := by
  fun_cases ownAnnotate with
  | case4 => exact (testHead_keeps (Keeps.refl s).setDib).traffic
  | case1 | case2 | case3 | case5 | case6 => rfl

theorem ownReadIntervals_traffic {n : Nat} : (ownReadIntervals n s).1.lc.traffic = s.lc.traffic := by
  fun_cases ownReadIntervals <;> rfl

theorem ownWriteTariff_traffic {t : Tariff} : (ownWriteTariff t s).1.lc.traffic = s.lc.traffic := by
  fun_cases ownWriteTariff <;> rfl

theorem openJob_traffic {job id : Nat} {start : Option Nat} {t : Tariff} :
    (openJob job id start t s).lc.traffic = s.lc.traffic :=
  ((joinOutbox_keeps (.refl (State.setBu _ _))).traffic).trans (dibOpenJob_keeps (.refl (s.setBu _))).traffic

theorem ownOpenJob_traffic {job id : Nat} {start : Option Nat} :
    (ownOpenJob job id start s).1.lc.traffic = s.lc.traffic := by
  fun_cases ownOpenJob with
  | case8 => exact openJob_traffic
  | case1 | case2 | case3 | case4 | case5 | case6 | case7 => rfl

theorem ownHoldJob_traffic : (ownHoldJob s).1.lc.traffic = s.lc.traffic := by
  fun_cases ownHoldJob <;> rfl

theorem ownReleaseJob_traffic : (ownReleaseJob s).1.lc.traffic = s.lc.traffic := by
  fun_cases ownReleaseJob <;> rfl

theorem ownDeclareBreakdown_traffic : (ownDeclareBreakdown s).1.lc.traffic = s.lc.traffic := by
  fun_cases ownDeclareBreakdown <;> rfl

theorem ownEndBreakdown_traffic : (ownEndBreakdown s).1.lc.traffic = s.lc.traffic := by
  fun_cases ownEndBreakdown <;> rfl

theorem ownAddMaterial_traffic {item qty : Nat} : (ownAddMaterial item qty s).1.lc.traffic = s.lc.traffic := by
  fun_cases ownAddMaterial <;> rfl

theorem buildTicket_traffic {kind : TicketKind} {toSec : Nat} :
    (buildTicket kind toSec s).lc.traffic = s.lc.traffic := by
  fun_cases buildTicket with
  | case1 => exact (joinOutbox_keeps (.refl (s.setBu _))).raise.traffic
  | case2 => rfl

theorem testFinal_traffic : (testFinal s).lc.traffic = s.lc.traffic := by
  fun_cases testFinal with
  | case1 => exact buildTicket_traffic
  | case2 => rfl

theorem ownIssueTicket_traffic : (ownIssueTicket s).1.lc.traffic = s.lc.traffic := by
  fun_cases ownIssueTicket with
  | case1 | case2 | case3 => rfl
  | case4 => exact buildTicket_traffic

theorem ownCloseJob_traffic : (ownCloseJob s).1.lc.traffic = s.lc.traffic := by
  have k {t : State} (e : dibCloseJob s = some t) : (testFinal (enterClosing t)).lc.traffic = s.lc.traffic :=
    testFinal_traffic.trans (dibCloseJob_leaves e).1.traffic
  fun_cases ownCloseJob with
  | case1 | case2 | case3 => rfl
  | case4 | case5 => exact k ‹_›

theorem ownCollectTicket_traffic {n : Nat} : (ownCollectTicket n s).1.lc.traffic = s.lc.traffic := by
  fun_cases ownCollectTicket with
  | case1 | case2 | case3 => rfl
  | case4 => exact testFinal_traffic

theorem ownReadAccruals_traffic {p : Nat} : (ownReadAccruals p s).1.lc.traffic = s.lc.traffic := by
  fun_cases ownReadAccruals <;> rfl

/-- Every owner leaves the line; a read changes nothing. -/
theorem own_traffic (r : Request) : (own r s).1.lc.traffic = s.lc.traffic := by
  cases r with
  | setParameter => exact ownSetParameter_traffic
  | setPump => exact ownSetPump_traffic
  | ackNotices => exact ownAckNotices_traffic
  | clearAll => exact ownClearAll_traffic
  | setClock => exact ownSetClock_traffic
  | setWatch => exact ownSetWatch_traffic
  | declareAddition => exact ownDeclareAddition_traffic
  | readBalance => exact ownReadBalance_traffic
  | acceptLatch => exact ownAcceptLatch_traffic
  | enterHoleWatch => exact ownEnterWatch_traffic
  | leaveHoleWatch => exact ownLeaveWatch_traffic
  | registerRod => exact ownRegisterRod_traffic
  | retireRod => exact ownRetireRod_traffic
  | loadSlot => exact ownLoadSlot_traffic
  | unloadSlot => exact ownUnloadSlot_traffic
  | placeRod => exact ownPlaceRod_traffic
  | addRod | removeRod => exact takeOperation_traffic
  | startTrip => exact ownStartTrip_traffic
  | stopTrip => exact ownStopTrip_traffic
  | resume => exact ownResume_traffic
  | abort => exact ownAbort_traffic
  | manualMove => exact ownManualMove_traffic
  | diverter => exact ownDiverter_traffic
  | markInterval => exact ownMarkInterval_traffic
  | annotate => exact ownAnnotate_traffic
  | readIntervals => exact ownReadIntervals_traffic
  | writeTariff => exact ownWriteTariff_traffic
  | openJob => exact ownOpenJob_traffic
  | holdJob => exact ownHoldJob_traffic
  | releaseJob => exact ownReleaseJob_traffic
  | declareBreakdown => exact ownDeclareBreakdown_traffic
  | endBreakdown => exact ownEndBreakdown_traffic
  | addMaterial => exact ownAddMaterial_traffic
  | issueTicket => exact ownIssueTicket_traffic
  | closeJob => exact ownCloseJob_traffic
  | collectTicket => exact ownCollectTicket_traffic
  | readAccruals => exact ownReadAccruals_traffic
  | setReturnMeter | setNoticeMask | identify | getParameter | readSignals | readTally | readLog
  | readTariff | readTicket => rfl

theorem deal_traffic (r : Request) : (deal r s).1.lc.traffic = s.lc.traffic := by
  fun_cases deal with
  | case1 | case2 => rfl
  | case3 => exact own_traffic r

end

/-! ## A request that arrives (R177, R179, R180) -/

section
variable {s : State} {dt : Nat} {tag : Byte} {r : Request}

/-- The row and the frame that carries the request do the same (R176, R179). -/
theorem requestRow_eq_frameRow (h : requestWf r = true) :
    requestRow dt tag r s = frameRow dt (requestFrame tag r) s := by
  have fits : (requestFrame tag r).payload.length ≤ Config.payloadTop := length_encodeRequest_le r h
  have read : decodeRequest (requestFrame tag r).kind (requestFrame tag r).payload = .ok r :=
    decodeRequest_encodeRequest r h
  simp only [requestRow, frameRow, fits, if_true, read]

/-- A request while the link is LOCKED: it is taken, kept waiting or dropped. -/
theorem requestRow_of_locked (on : s.tps.phase ≠ .off) (locked : s.lc.locked = true) :
    requestRow dt tag r s = finish
      (if (s.heard dt).lc.mayTake && s.lc.rx.isEmpty then
        serve (encodeRequest r).1 tag (.ok r) (s.heard dt)
      else if s.lc.rx.length < 2 then
        (s.heard dt).setLc { (s.heard dt).lc with rx := s.lc.rx ++ [requestFrame tag r] }
      else s.heard dt) := by
  rw [requestRow, whenOn_of_on on, frameIn, if_pos (by simpa using locked)]
  simp only [arrives, ← State.elapse_lc_rx dt s]
  rfl

/-- While a frame goes out the link takes a request exactly where none is in hand (R180). -/
theorem mayTake_iff {l : Lc} {x : TxFrame} (tx : l.tx = some x) : l.mayTake = true ↔
    ¬(x.what ≠ .notice ∨ l.holdTake = true ∨ l.built ≠ none ∨ l.clearing = true) := by
  cases hb : l.built <;> simp [Lc.mayTake, tx, hb, and_comm, and_assoc]

/-- A request's reply as it is built (R180, R189, R200). -/
theorem serve_request : serve (encodeRequest r).1 tag (.ok r) s =
    (deal r s).1.setLc { (deal r s).1.lc with
      built := some ⟨if (deal r s).1.lc.clearing then .clearReply else .reply,
        ⟨(encodeRequest r).1 + 0x80#8, tag, (deal r s).2.payload.take 240⟩⟩ } := by
  rw [← replyKind_encodeRequest]
  rfl

end

/-- Settles O10: the row and its frame; then a request while a frame goes out, by whether one is in hand and by
what waits. -/
theorem requestsArriveAsTheirFrames : Obligations.RequestsArriveAsTheirFrames := by
  refine ⟨fun c dt tag r s hc wf => ?_, fun c dt tag r s x hc hs locked tx => ?_⟩
  · rw [exec_of_request hc, requestRow_eq_frameRow wf]
    rfl
  · intro h inHand
    have tx' : h.lc.tx = some x := by simpa [h, State.heard] using tx
    have quiet : h.reports = [] := heard_reports.trans hs.2
    have takes : h.lc.mayTake = true ↔ ¬inHand := by
      rw [mayTake_iff tx']
      simp [h, State.heard, inHand]
    have row : exec c s = _ := (exec_of_request hc).trans (congrArg _ (requestRow_of_locked hs.1 locked))
    have stands {t : State} (e : t.lc.tx = some x) (q : t.reports = []) : finish t = t :=
      (finish_of_nil q).trans (lcService_of_tx e)
    refine ⟨fun waits room => ?_, fun full => ?_, fun free empty => ?_⟩
    · have held : ¬(h.lc.mayTake && s.lc.rx.isEmpty) = true := by
        rw [Bool.and_eq_true, takes, List.isEmpty_iff]
        tauto
      rw [row, if_neg held, if_pos room]
      exact congrArg _ (stands tx' quiet)
    · have held : ¬(h.lc.mayTake && s.lc.rx.isEmpty) = true := by
        have waiting : s.lc.rx ≠ [] := List.ne_nil_of_length_pos (by omega)
        simp [waiting]
      rw [row, if_neg held, if_neg (by omega)]
      exact congrArg _ (stands tx' quiet)
    · intro u built t
      have taken : (h.lc.mayTake && s.lc.rx.isEmpty) = true := by
        rw [Bool.and_eq_true, takes]
        exact ⟨free, by rw [empty]; rfl⟩
      have keeps : Keeps (u.setLc { u.lc with built := some built }) t := settle_keeps (.refl _)
      have tx_u : u.lc.tx = some x := (tx_of_traffic (deal_traffic r)).trans tx'
      have tx_t : t.lc.tx = some x := (tx_of_traffic keeps.traffic).trans tx_u
      refine ⟨?_, tx_t, congrArg Lc.built keeps.line⟩
      rw [row, if_pos taken, serve_request]
      exact congrArg _ (lcService_of_tx tx_t)

end Sys2Proof.Machine
end

section
/-! PROOFS. Requests until start-up ends: the refusal BUSY (R195). -/

namespace Sys2Proof.Machine

section
variable {s : State} {r : Request}

/-- The dealing with a request that is not taken until start-up ends: no change, and BUSY, with the handling
status for a handling message (R77, R195). -/
theorem deal_of_startUp (phase : s.tps.phase = .startUp) (other : takenInStartUp r = false) :
    deal r s = (s, .refuse .busy (if handlingMessage r then handlingStatus s else [])) := by
  have early : (s.tps.phase != .running && !takenInStartUp r) = true := by simp [phase, other]
  rw [deal, if_pos early]
  split <;> rfl

/-- The row of a request that is not taken until start-up ends (R180, R195). -/
theorem requestRow_of_startUp {dt : Nat} {tag : Byte} (phase : s.tps.phase = .startUp)
    (quiet : s.reports = []) (free : s.lc.free) (other : takenInStartUp r = false) :
    requestRow dt tag r s = (s.heard dt).answering tag r
      (.refuse .busy (if handlingMessage r then handlingStatus (s.heard dt) else [])) :=
  requestRow_of_deal (by simp [phase]) free
    (deal_of_startUp ((congrArg Tps.phase heard_tps).trans phase) other)
    (heard_reports.trans quiet) (heard_free free)

end

/-- Settles O11: a request that R195 lists is excluded, and any other has the row of a refused one, whose fields
are the handling status exactly for the six messages of R77. -/
theorem startUpRefusesBusy : Obligations.StartUpRefusesBusy := by
  intro c dt tag r s hc phase quiet free unlisted
  have busy (other : takenInStartUp r = false) : exec c s = _ :=
    (exec_of_request hc).trans (congrArg _ (requestRow_of_startUp phase quiet free other))
  cases r with
  | identify | getParameter | setNoticeMask | ackNotices | readSignals | readBalance | readTally
  | readIntervals | readLog | readTariff | readTicket | readAccruals => exact unlisted.elim
  | _ => exact busy rfl

end Sys2Proof.Machine
end

section
/-! PROOFS. The queue of commands: a step runs the command at its front, and no command adds to it or takes from
it (log 1). -/

namespace Sys2Proof.Machine

/-- Settles O1: by the queue's front, which `step` takes. -/
theorem stepRunsTheFrontCommand : Obligations.StepRunsTheFrontCommand := by
  refine ⟨fun s c rest => rfl, fun s empty => ?_⟩
  rw [step, empty]

/-! ## The operations that the owners of the requests call

Each is one that `Keeps` or `Stays` speaks of, and its queue is tagged for `simp`. -/

section
variable {s : State}

@[simp] theorem settle_pending : (settle s).pending = s.pending := (settle_keeps (.refl s)).pending

@[simp] theorem deliverLength_pending : (deliverLength s).pending = s.pending :=
  (deliverLength_keeps (.refl s)).pending

@[simp] theorem testAllLimits_pending : (testAllLimits s).pending = s.pending :=
  (testAllLimits_keeps (.refl s)).pending

@[simp] theorem hsHead_pending : (hsHead s).pending = s.pending := (hsHead_keeps (.refl s)).pending

@[simp] theorem dibEncoder_pending {cause : Option EncCause} : (dibEncoder cause s).pending = s.pending :=
  (dibEncoder_keeps (.refl s)).pending

@[simp] theorem recompute_pending : (recompute s).pending = s.pending := (recompute_keeps (.refl s)).pending

@[simp] theorem clearGroupFlag_pending {n : GroupNo} : (clearGroupFlag n s).pending = s.pending :=
  (clearGroupFlag_keeps (.refl s)).pending

@[simp] theorem writeGroup_pending {n : GroupNo} {sel pat : SwitchSet} :
    (writeGroup n sel pat s).1.pending = s.pending :=
  (writeGroup_fst (.refl s)).pending

@[simp] theorem raiseGroup3_pending : (raiseGroup3 s).pending = s.pending := rfl

@[simp] theorem declareVolume_pending {v : Int} : (declareVolume v s).pending = s.pending :=
  (declareVolume_keeps (.refl s)).pending

@[simp] theorem clearLatch_pending {l : LatchName} {how : ClearCause} :
    (clearLatch l how s).pending = s.pending :=
  (clearLatch_keeps (.refl s)).pending

@[simp] theorem enterWatch_pending : (enterWatch s).pending = s.pending := (enterWatch_keeps (.refl s)).pending

@[simp] theorem leaveWatch_pending : (leaveWatch s).pending = s.pending := (leaveWatch_keeps (.refl s)).pending

@[simp] theorem beginLoader_pending {kind : LoadKind} {intent : Intent} {slot rod : Nat} :
    (beginLoader kind intent slot rod s).pending = s.pending :=
  (beginLoader_keeps ..).pending

@[simp] theorem armEmptied_pending : (armEmptied s).pending = s.pending := (armEmptied_keeps (.refl s)).pending

@[simp] theorem startOp_pending {op : Op} {slot rod : Nat} {trip : Bool} :
    (startOp op slot rod trip s).pending = s.pending :=
  (startOp_keeps (.refl s)).pending

@[simp] theorem endTrip_pending {reason : TripEnd} : (endTrip reason s).pending = s.pending :=
  (endTrip_keeps (.refl s)).pending

@[simp] theorem resumeOp_pending {o : OpRec} : (resumeOp o s).pending = s.pending :=
  (resumeOp_keeps (.refl s)).pending

@[simp] theorem tripNext_pending : (tripNext s).pending = s.pending := (tripNext_keeps (.refl s)).pending

@[simp] theorem clearStopFlags_pending : (clearStopFlags s).pending = s.pending :=
  (clearStopFlags_keeps (.refl s)).pending

@[simp] theorem abortOp_pending {o : OpRec} : (abortOp o s).pending = s.pending :=
  (abortOp_keeps (.refl s)).pending

@[simp] theorem requestMotion_pending {r : Req} : (requestMotion r s).pending = s.pending :=
  (requestMotion_keeps (.refl s)).pending

@[simp] theorem testHead_pending : (testHead s).pending = s.pending := (testHead_keeps (.refl s)).pending

@[simp] theorem dibOpenJob_pending {job : Nat} {start : Option Nat} :
    (dibOpenJob job start s).pending = s.pending :=
  (dibOpenJob_keeps (.refl s)).pending

@[simp] theorem joinOutbox_pending {r : OutRec} : (joinOutbox r s).pending = s.pending :=
  (joinOutbox_keeps (.refl s)).pending

@[simp] theorem buildTicket_pending {kind : TicketKind} {toSec : Nat} :
    (buildTicket kind toSec s).pending = s.pending :=
  (buildTicket_stays (.refl s)).pending

@[simp] theorem testFinal_pending : (testFinal s).pending = s.pending := (testFinal_stays (.refl s)).pending

/-! ## The owners of the requests

Each branch of an owner is a refusal, which changes nothing, or replaces blocks and calls the operations above; so
the simp set reads off its queue, branch by branch. -/

@[simp] theorem refused_fst {r : Reason} : (refused r s).1 = s := rfl
@[simp] theorem done_fst : (done s).1 = s := rfl
@[simp] theorem withStatus_fst {x : State × Reply} : (withStatus x).1 = x.1 := rfl

@[simp] theorem afterStore_pending {n : Nat} {old new : Int} : (afterStore n old new s).pending = s.pending := by
  fun_cases afterStore <;> simp

@[simp] theorem ownHeadPreset_pending {v : Int} : (ownHeadPreset v s).1.pending = s.pending := by
  fun_cases ownHeadPreset <;> simp +zetaDelta

@[simp] theorem ownIndexPreset_pending {v : Int} : (ownIndexPreset v s).1.pending = s.pending := by
  fun_cases ownIndexPreset <;> rfl

@[simp] theorem ownDepthOffset_pending {v : Int} : (ownDepthOffset v s).1.pending = s.pending := by
  fun_cases ownDepthOffset <;> simp

@[simp] theorem ownSetParameter_pending {n : Nat} {v : Int} :
    (ownSetParameter n v s).1.pending = s.pending := by
  fun_cases ownSetParameter <;> simp

@[simp] theorem ownSetPump_pending {pump : Byte} {d e : Nat} :
    (ownSetPump pump d e s).1.pending = s.pending := by
  fun_cases ownSetPump <;> rfl

@[simp] theorem ownSetReturnMeter_pending {k : Nat} : (ownSetReturnMeter k s).1.pending = s.pending := rfl

@[simp] theorem ownSetNoticeMask_pending {kinds : KindSet} :
    (ownSetNoticeMask kinds s).1.pending = s.pending := rfl

@[simp] theorem ownAckNotices_pending {kinds : KindSet} :
    (ownAckNotices kinds s).1.pending = s.pending := by
  rw [ownAckNotices]
  split <;> simp

@[simp] theorem ownClearAll_pending : (ownClearAll s).1.pending = s.pending := by
  fun_cases ownClearAll <;> rfl

@[simp] theorem ownSetClock_pending {second : Nat} : (ownSetClock second s).1.pending = s.pending := by
  fun_cases ownSetClock <;> rfl

@[simp] theorem ownSetWatch_pending {sel pat : SwitchSet} :
    (ownSetWatch sel pat s).1.pending = s.pending := by
  simp only [ownSetWatch, done_fst]
  split <;> simp

@[simp] theorem ownDeclareAddition_pending {v : Int} : (ownDeclareAddition v s).1.pending = s.pending := by
  fun_cases ownDeclareAddition <;> simp

@[simp] theorem ownReadBalance_pending {part : Nat} : (ownReadBalance part s).1.pending = s.pending := by
  fun_cases ownReadBalance <;> rfl

@[simp] theorem ownAcceptLatch_pending {code : Byte} : (ownAcceptLatch code s).1.pending = s.pending := by
  fun_cases ownAcceptLatch <;> simp

@[simp] theorem ownEnterWatch_pending : (ownEnterWatch s).1.pending = s.pending := by
  fun_cases ownEnterWatch <;> simp

@[simp] theorem ownLeaveWatch_pending : (ownLeaveWatch s).1.pending = s.pending := by
  fun_cases ownLeaveWatch <;> simp

@[simp] theorem ownRegisterRod_pending {x : Serial} {len cls : Nat} :
    (ownRegisterRod x len cls s).1.pending = s.pending := by
  fun_cases ownRegisterRod <;> rfl

@[simp] theorem ownRetireRod_pending {x : Serial} : (ownRetireRod x s).1.pending = s.pending := by
  fun_cases ownRetireRod <;> rfl

@[simp] theorem ownLoadSlot_pending {x : Serial} {named : Option Nat} :
    (ownLoadSlot x named s).1.pending = s.pending := by
  fun_cases ownLoadSlot <;> simp

@[simp] theorem ownUnloadSlot_pending {n : Nat} : (ownUnloadSlot n s).1.pending = s.pending := by
  fun_cases ownUnloadSlot <;> simp

@[simp] theorem ownPlaceRod_pending {d : Byte} : (ownPlaceRod d s).1.pending = s.pending := by
  fun_cases ownPlaceRod <;> simp

@[simp] theorem startReply_pending {op : Op} {slot rod : Nat} {trip : Bool} :
    (startReply op slot rod trip s).1.pending = s.pending := by
  simp [startReply]

@[simp] theorem takeOperation_pending {op : Op} {named : Option Nat} :
    (takeOperation op named s).1.pending = s.pending := by
  fun_cases takeOperation <;> simp

@[simp] theorem ownStartTrip_pending {d : Byte} {n : Nat} : (ownStartTrip d n s).1.pending = s.pending := by
  fun_cases ownStartTrip <;> simp

@[simp] theorem ownStopTrip_pending : (ownStopTrip s).1.pending = s.pending := by
  fun_cases ownStopTrip <;> simp

@[simp] theorem ownResume_pending : (ownResume s).1.pending = s.pending := by
  fun_cases ownResume <;> simp

@[simp] theorem ownAbort_pending : (ownAbort s).1.pending = s.pending := by
  fun_cases ownAbort <;> simp

@[simp] theorem ownManualMove_pending {fn d : Byte} {ms : Nat} :
    (ownManualMove fn d ms s).1.pending = s.pending := by
  fun_cases ownManualMove <;> simp

@[simp] theorem ownDiverter_pending {d : Byte} : (ownDiverter d s).1.pending = s.pending := by
  fun_cases ownDiverter <;> simp

@[simp] theorem ownMarkInterval_pending : (ownMarkInterval s).1.pending = s.pending := by
  fun_cases ownMarkInterval with
  | case6 => exact (closeAtMark_keeps (by assumption) (.refl s)).pending
  | case1 | case2 | case3 | case4 | case5 => rfl

@[simp] theorem ownAnnotate_pending {number : Nat} {n : Note} :
    (ownAnnotate number n s).1.pending = s.pending := by
  fun_cases ownAnnotate <;> simp

@[simp] theorem ownReadIntervals_pending {n : Nat} : (ownReadIntervals n s).1.pending = s.pending := by
  fun_cases ownReadIntervals <;> rfl

@[simp] theorem ownWriteTariff_pending {t : Tariff} : (ownWriteTariff t s).1.pending = s.pending := by
  fun_cases ownWriteTariff <;> rfl

@[simp] theorem openJob_pending {job id : Nat} {start : Option Nat} {t : Tariff} :
    (openJob job id start t s).pending = s.pending := by
  simp [openJob]

@[simp] theorem ownOpenJob_pending {job id : Nat} {start : Option Nat} :
    (ownOpenJob job id start s).1.pending = s.pending := by
  fun_cases ownOpenJob <;> simp +zetaDelta

@[simp] theorem ownHoldJob_pending : (ownHoldJob s).1.pending = s.pending := by
  fun_cases ownHoldJob <;> rfl

@[simp] theorem ownReleaseJob_pending : (ownReleaseJob s).1.pending = s.pending := by
  fun_cases ownReleaseJob <;> rfl

@[simp] theorem ownDeclareBreakdown_pending : (ownDeclareBreakdown s).1.pending = s.pending := by
  fun_cases ownDeclareBreakdown <;> rfl

@[simp] theorem ownEndBreakdown_pending : (ownEndBreakdown s).1.pending = s.pending := by
  fun_cases ownEndBreakdown <;> rfl

@[simp] theorem ownAddMaterial_pending {item qty : Nat} : (ownAddMaterial item qty s).1.pending = s.pending := by
  fun_cases ownAddMaterial <;> rfl

@[simp] theorem ownIssueTicket_pending : (ownIssueTicket s).1.pending = s.pending := by
  fun_cases ownIssueTicket <;> simp +zetaDelta

@[simp] theorem ownCloseJob_pending : (ownCloseJob s).1.pending = s.pending := by
  have k {t : State} (e : dibCloseJob s = some t) : (testFinal (enterClosing t)).pending = s.pending :=
    testFinal_pending.trans (dibCloseJob_leaves e).1.pending
  fun_cases ownCloseJob with
  | case1 | case2 | case3 => rfl
  | case4 | case5 => exact k ‹_›

@[simp] theorem ownCollectTicket_pending {n : Nat} : (ownCollectTicket n s).1.pending = s.pending := by
  fun_cases ownCollectTicket <;> simp +zetaDelta

@[simp] theorem ownReadAccruals_pending {p : Nat} : (ownReadAccruals p s).1.pending = s.pending := by
  fun_cases ownReadAccruals <;> rfl

/-- Every owner leaves the queue, by its own lemma; a read changes nothing. -/
@[simp] theorem own_pending {r : Request} : (own r s).1.pending = s.pending := by
  cases r <;> simp [own]

/-! ## The link -/

@[simp] theorem deal_pending {r : Request} : (deal r s).1.pending = s.pending := by
  fun_cases deal <;> simp

@[simp] theorem answer_pending {kind : Byte} {res : Except Reason Request} :
    (answer kind res s).1.pending = s.pending := by
  fun_cases answer <;> simp

@[simp] theorem serve_pending {kind tag : Byte} {res : Except Reason Request} :
    (serve kind tag res s).pending = s.pending := by
  simp [serve]

@[simp] theorem arrives_pending {f : Frame} {res : Except Reason Request} :
    (arrives f res s).pending = s.pending := by
  fun_cases arrives <;> simp +zetaDelta

@[simp] theorem takeWaiting_pending : (takeWaiting s).pending = s.pending := by
  fun_cases takeWaiting <;> simp

/-- A cold start keeps the commands that wait (log 1). -/
@[simp] theorem coldStart_pending : (coldStart s).pending = s.pending := rfl

@[simp] theorem sendNotice_pending {code : Nat} : (sendNotice code s).pending = s.pending := rfl

@[simp] theorem transmitted_pending : (transmitted s).pending = s.pending := by
  fun_cases transmitted <;> simp +zetaDelta

@[simp] theorem nextTrial_pending : (nextTrial s).pending = s.pending := rfl

@[simp] theorem lockOn_pending {f : Frame} : (lockOn f s).pending = s.pending := by
  simp [lockOn]

@[simp] theorem firstByte_pending {b : Byte} {bad : Bool} : (firstByte b bad s).pending = s.pending := by
  fun_cases firstByte <;> rfl

@[simp] theorem huntTake_pending {b : Byte} {bad : Bool} : (huntTake b bad s).pending = s.pending := by
  fun_cases huntTake <;> simp

@[simp] theorem huntByte_pending {b : Byte} {bad : Bool} : (huntByte b bad s).pending = s.pending := by
  fun_cases huntByte <;> simp

@[simp] theorem frameIn_pending {f : Frame} {res : Except Reason Request} :
    (frameIn f res s).pending = s.pending := by
  fun_cases frameIn with
  | case1 => exact arrives_pending
  | case2 =>
    exact List.foldlRecOn (motive := fun t : State => t.pending = s.pending) f.bytes _ rfl
      fun _ h _ _ => huntByte_pending.trans h

@[simp] theorem rehunt_pending : (rehunt s).pending = s.pending := by
  fun_cases rehunt <;> simp +zetaDelta

@[simp] theorem finish_pending : (finish s).pending = s.pending := (finish_stays (.refl s)).pending

/-! ## Power -/

/-- A warm recovery keeps the commands that wait (log 1). -/
@[simp] theorem warmStart_pending : (warmStart s).pending = s.pending := by
  have recovered {u : State} (e : u.pending = s.pending) : (recoverStart u).pending = s.pending :=
    (recoverStart_keeps (.refl u)).pending.trans e
  fun_cases warmStart with
  | case1 => exact (storeReady_stays (.refl _)).pending.trans (recovered rfl)
  | case2 => exact recovered rfl

@[simp] theorem powerReturns_pending {secs : Nat} {good : Bool} :
    (powerReturns secs good s).pending = s.pending := by
  fun_cases powerReturns <;> simp +zetaDelta

@[simp] theorem powerFails_pending : (powerFails s).pending = s.pending :=
  (disarmGroup_keeps (.refl s)).pending

/-! ## The rows -/

/-- An event leaves the queue if what it does then leaves it; while the part is held in reset none acts. -/
theorem whenOn_pending {dt : Nat} {f : State → State} (hf : ∀ u, (f u).pending = u.pending) :
    (whenOn dt s f).pending = s.pending := by
  fun_cases whenOn <;> simp [hf]

theorem event_pending {dt : Nat} {f : State → State} (hf : ∀ u, (f u).pending = u.pending) :
    (event dt f s).pending = s.pending :=
  whenOn_pending fun u => finish_pending.trans (hf u)

/-- One that acts only when it is due (log 9). -/
theorem dueEvent_pending {dt : Nat} {p : State → Prop} [DecidablePred p] {f : State → State}
    (hf : ∀ u, (f u).pending = u.pending) :
    (event dt (fun u => if p u then f u else u) s).pending = s.pending :=
  event_pending fun u => by split <;> simp [hf]

theorem requestRow_pending {dt : Nat} {tag : Byte} {r : Request} :
    (requestRow dt tag r s).pending = s.pending :=
  whenOn_pending fun _ => finish_pending.trans frameIn_pending

theorem frameRow_pending {dt : Nat} {f : Frame} : (frameRow dt f s).pending = s.pending :=
  whenOn_pending fun _ => by split <;> simp

end

/-- Every command leaves the queue: a request by its owner, an event of the rig by what `Stays` says of it, and
the rows of the line and of the supply by what they do. -/
theorem exec_pending (c : Instr) (s : State) : ∃ t, exec c s = .next t ∧ t.pending = s.pending := by
  cases hr : c.request with
  | some x =>
    obtain ⟨dt, tag, r⟩ := x
    exact ⟨_, exec_of_request hr, requestRow_pending⟩
  | none =>
    cases hc : c.ofRig with
    | true =>
      obtain ⟨t, e, stays⟩ := exec_stays_of_rig hc s
      exact ⟨t, e, stays.pending⟩
    | false =>
      cases c with
      | unknownKindRequest | frameReceived => exact ⟨_, rfl, frameRow_pending⟩
      | huntByte => exact ⟨_, rfl, event_pending fun _ => huntByte_pending⟩
      | interByteTimeout => exact ⟨_, rfl, dueEvent_pending fun _ => nextTrial_pending⟩
      | silenceTimerExpiry => exact ⟨_, rfl, dueEvent_pending fun _ => rehunt_pending⟩
      | transmitComplete => exact ⟨_, rfl, event_pending fun _ => transmitted_pending⟩
      | frameDropped => exact ⟨_, rfl, event_pending fun _ => rfl⟩
      | powerFailWarning => exact ⟨_, rfl, whenOn_pending fun _ => powerFails_pending⟩
      | powerUp =>
        refine ⟨_, rfl, ?_⟩
        split
        · exact powerReturns_pending
        · rfl
      | _ => simp [Instr.request, Instr.ofRig] at hr hc

/-- Settles O2: a command's one outcome has the queue of the state before. -/
theorem noCommandTouchesTheQueue : Obligations.NoCommandTouchesTheQueue := by
  intro c s t e
  obtain ⟨u, hu, same⟩ := exec_pending c s
  cases hu.symm.trans e
  exact same

end Sys2Proof.Machine
end

section
/-! PROOFS. Frames as requests: a frame that is read as a request is that request's frame, and any other is
refused with the reason that its kind and length give (R77, R180, R181, R200 to R203). -/

namespace Sys2Proof.Machine

/-- Settles O8: each field of a well-formed request is read back from its payload. -/
theorem requestsReadBackFromTheirFrames : Obligations.RequestsReadBackFromTheirFrames :=
  decodeRequest_encodeRequest

/-! ## Bytes as numbers (R201) -/

/-- A number's bytes do not tell what it holds above them. -/
theorem be_mul_add (w m n : Nat) : be w (m * 256 ^ w + n) = be w n := by
  induction w generalizing m with
  | zero => rfl
  | succ w ih =>
    have shift : m * 256 ^ (w + 1) = m * 256 * 256 ^ w := by ring
    have head : (m * 256 * 256 ^ w + n) / 256 ^ w = m * 256 + n / 256 ^ w := by
      rw [Nat.add_comm, Nat.add_mul_div_right _ _ (by positivity), Nat.add_comm]
    rw [be, be, shift, ih, head]
    congr 1
    apply BitVec.eq_of_toNat_eq
    simp [Nat.add_mod]

/-- The number that a byte and those behind it spell (R201). -/
theorem fromBe_cons (b : Byte) (l : List Byte) : fromBe (b :: l) = b.toNat * 256 ^ l.length + fromBe l := by
  rw [fromBe, List.foldl_cons, foldl_fromBe, Nat.zero_mul, Nat.zero_add]

theorem fromBe_lt (l : List Byte) : fromBe l < 256 ^ l.length := by
  induction l with
  | nil => simp [fromBe]
  | cons b l ih =>
    have hb : b.toNat + 1 ≤ 256 := b.isLt
    calc fromBe (b :: l) = b.toNat * 256 ^ l.length + fromBe l := fromBe_cons b l
      _ < (b.toNat + 1) * 256 ^ l.length := by rw [Nat.add_mul, Nat.one_mul]; omega
      _ ≤ 256 * 256 ^ l.length := Nat.mul_le_mul_right _ hb
      _ = 256 ^ (b :: l).length := by rw [List.length_cons, pow_succ, Nat.mul_comm]

/-- The number that bytes spell is spelled by those bytes. -/
theorem be_fromBe (l : List Byte) : be l.length (fromBe l) = l := by
  induction l with
  | nil => rfl
  | cons b l ih =>
    have head : (b.toNat * 256 ^ l.length + fromBe l) / 256 ^ l.length = b.toNat := by
      rw [Nat.add_comm, Nat.add_mul_div_right _ _ (by positivity), Nat.div_eq_of_lt (fromBe_lt l), Nat.zero_add]
    rw [fromBe_cons, List.length_cons, be, be_mul_add, ih, head, BitVec.ofNat_toNat, BitVec.setWidth_eq]

/-! ## Fields of a payload that is long enough (R201) -/

section
variable {w n i j : Nat} {p : List Byte}

/-- A field's bytes are those that stand at its offset. -/
theorem be_field (h : w = 8 * n) (fits : i + n ≤ p.length) :
    be n (field w n p i).toNat = (p.drop i).take n := by
  have long : ((p.drop i).take n).length = n := by simp; omega
  have whole : 2 ^ w = 256 ^ ((p.drop i).take n).length := by rw [long, h, pow_mul]; rfl
  have spelled := be_fromBe ((p.drop i).take n)
  rwa [← Nat.mod_eq_of_lt (fromBe_lt _), ← whole, ← BitVec.toNat_ofNat, long] at spelled

/-- A field's bytes and the bytes behind it. -/
theorem be_field_append_drop (h : w = 8 * n) (fits : i + n ≤ p.length) (e : j = i + n) :
    be n (field w n p i).toNat ++ p.drop j = p.drop i := by
  rw [be_field h fits, e, ← List.drop_drop, List.take_append_drop]

/-- The last field of a payload. -/
theorem be_field_last (h : w = 8 * n) (ends : p.length = i + n) : be n (field w n p i).toNat = p.drop i := by
  rw [be_field h ends.ge, List.take_of_length_le (by simp; omega)]

/-- Entries of `n` bytes each that are read one after another spell the bytes from which they were read. -/
theorem flatMap_map_range_append_drop {α : Type} {f : α → List Byte} {read : Nat → α} {off : Nat}
    (spells : ∀ k, k + n ≤ p.length → f (read k) ++ p.drop (k + n) = p.drop k) (m : Nat)
    (fits : off + n * m ≤ p.length) :
    ((List.range m).map (fun i => read (off + n * i))).flatMap f ++ p.drop (off + n * m) = p.drop off := by
  induction m with
  | zero => simp
  | succ m ih =>
    have next : off + n * (m + 1) = off + n * m + n := by ring
    rw [List.range_succ, List.map_append, List.flatMap_append, List.append_assoc, List.map_singleton,
      List.flatMap_singleton, next, spells _ (by omega), ih (by omega)]

end

/-! ## WRITE TARIFF (R202, R203) -/

section
variable {p : List Byte} {k : Nat}

theorem rateBytes_append_drop (fits : k + 3 ≤ p.length) :
    rateBytes (u24 p k) ++ p.drop (k + 3) = p.drop k :=
  be_field_append_drop rfl fits rfl

theorem bandBytes_append_drop (fits : k + 6 ≤ p.length) :
    bandBytes (u24 p k, u24 p (k + 3)) ++ p.drop (k + 6) = p.drop k := by
  rw [bandBytes, List.append_assoc, u24, u24, be_field_append_drop rfl (by omega) rfl,
    be_field_append_drop rfl (by omega) rfl]

theorem itemBytes_append_drop (fits : k + 9 ≤ p.length) :
    itemBytes (u48 p k, u24 p (k + 6)) ++ p.drop (k + 9) = p.drop k := by
  rw [itemBytes, List.append_assoc, u48, u24, be_field_append_drop rfl (by omega) rfl,
    be_field_append_drop rfl (by omega) rfl]

/-- A payload of the length that its counts give is the payload of the tariff that it carries. -/
theorem tariffPayload_readTariffWire (long : p.length = tariffLength (u8 p 13).toNat (u16 p 14)) :
    tariffPayload (readTariffWire p) = p := by
  let b := (u8 p 13).toNat
  let c := itemCount (u16 p 14)
  have length : p.length = 46 + 6 * b + 9 * c := long
  have rates : (readTariffWire p).rates.flatMap rateBytes ++ p.drop 46 = p.drop 16 :=
    flatMap_map_range_append_drop (fun _ => rateBytes_append_drop) 10 (by omega)
  have bands : (readTariffWire p).bands.flatMap bandBytes ++ p.drop (46 + 6 * b) = p.drop 46 :=
    flatMap_map_range_append_drop (read := fun k => (u24 p k, u24 p (k + 3)))
      (fun _ => bandBytes_append_drop) b (by omega)
  have items : (readTariffWire p).items.flatMap itemBytes = p.drop (46 + 6 * b) := by
    rw [← flatMap_map_range_append_drop (read := fun k => (u48 p k, u24 p (k + 6)))
      (fun _ => itemBytes_append_drop) c (by omega), List.drop_of_length_le length.le, List.append_nil]
    rfl
  rw [tariffPayload_eq, items, bands, rates]
  simp only [readTariffWire, u8, u16]
  rw [be_field_append_drop rfl (by omega) rfl, be_field_append_drop rfl (by omega) rfl,
    be_field_append_drop rfl (by omega) rfl, be_field_append_drop rfl (by omega) rfl, List.drop_zero]

end

/-! ## Every frame -/

section
variable {kind : Byte} {p : List Byte} {r : Request} {n : Nat}

/-- A payload of the one allowed length, read as a request whose payload it is (R203). -/
theorem encodeRequest_of_fixed {q : Request} (hk : kind.toNat = (encodeRequest q).1.toNat)
    (spells : p.length = n → p = (encodeRequest q).2) (h : fixed n p q = .ok r) :
    encodeRequest r = (kind, p) := by
  rw [fixed] at h
  split at h
  · next long =>
    cases h
    exact Prod.ext (BitVec.eq_of_toNat_eq hk.symm) (spells long).symm
  · cases h

/-- A frame that is read as a request is that request's: no bit of it is dropped (R202, R203). -/
theorem encodeRequest_of_decodeRequest (h : decodeRequest kind p = .ok r) : encodeRequest r = (kind, p) := by
  revert h
  fun_cases decodeRequest kind p with
  | case35 hk long =>
    intro h
    cases h
    rw [Bool.and_eq_true, beq_iff_eq] at long
    exact Prod.ext (BitVec.eq_of_toNat_eq hk.symm) (tariffPayload_readTariffWire long.2)
  | case36 | case49 => exact fun h => nomatch h
  | _ =>
    refine encodeRequest_of_fixed ‹_› fun long => ?_
    simp [encodeRequest, u8, u16, u24, u32, u48, be_field_last, be_field_append_drop, long,
      ← List.length_eq_zero_iff, -List.drop_one]

/-- The kind of WRITE TARIFF (R203). -/
theorem decodeRequest_tariff : decodeRequest 0x23#8 p =
    if 46 ≤ p.length && p.length == tariffLength (u8 p 13).toNat (u16 p 14) then
      .ok (.writeTariff (readTariffWire p))
    else .error .badLength := rfl

/-- A request read from a payload that fits a frame is well formed (R178, R202, R203). -/
theorem requestWf_of_decodeRequest (h : decodeRequest kind p = .ok r) (fits : p.length ≤ 240) :
    requestWf r = true := by
  cases r with
  | writeTariff t =>
    have hk : 0x23#8 = kind := congrArg Prod.fst (encodeRequest_of_decodeRequest h)
    subst hk
    rw [decodeRequest_tariff] at h
    split at h
    · next long =>
      cases h
      rw [Bool.and_eq_true, beq_iff_eq] at long
      exact tariffWf_iff.2 ⟨by simp [readTariffWire], by simp [readTariffWire], by simp [readTariffWire],
        long.2 ▸ fits⟩
    · cases h
  | _ => rfl

theorem unknownKind_iff : unknownKind kind = true ↔ ¬(1 ≤ kind.toNat ∧ kind.toNat ≤ 47) := by
  simp only [unknownKind, Bool.or_eq_true, decide_eq_true_eq]
  omega

/-- A kind that the table does not give is refused, whatever its payload (R181, R203). -/
theorem decodeRequest_of_unknownKind (h : unknownKind kind = true) :
    decodeRequest kind p = .error .unknownKind := by
  have outside := unknownKind_iff.1 h
  fun_cases decodeRequest kind p with
  | case49 => rfl
  | _ => exact absurd (by omega) outside

/-- A payload is read, or has not the one allowed length. -/
theorem fixed_ok_or_badLength (n : Nat) (p : List Byte) (q : Request) :
    (∃ r, fixed n p q = .ok r) ∨ fixed n p q = .error .badLength := by
  rw [fixed]
  split
  · exact .inl ⟨q, rfl⟩
  · exact .inr rfl

/-- A frame of a kind that the table gives is read, or its length is not one that the table gives. -/
theorem decodeRequest_of_knownKind (h : unknownKind kind = false) :
    (∃ r, decodeRequest kind p = .ok r) ∨ decodeRequest kind p = .error .badLength := by
  fun_cases decodeRequest kind p with
  | case35 => exact .inl ⟨_, rfl⟩
  | case36 => exact .inr rfl
  | case49 =>
    have inside : 1 ≤ kind.toNat ∧ kind.toNat ≤ 47 := by simpa [h] using unknownKind_iff (kind := kind)
    grind
  | _ => exact fixed_ok_or_badLength ..

end

/-! ## A frame that is refused (R77, R180, R181) -/

section
variable {s : State} {dt : Nat} {kind tag : Byte} {p : List Byte} {why : Reason}

/-- The handling status is short of a frame's payload by far (R77, R178). -/
theorem length_handlingStatus_le (s : State) : (handlingStatus s).length ≤ 29 := by
  cases hop : s.hs.op <;> cases htrip : s.hs.trip <;>
    simp [handlingStatus, hop, htrip, mark, serialBytes, TripRec.bytes, optSec]

/-- The fields of the refusal of a frame that is not read: the handling status where its kind is that of a
handling message (R77). -/
def refusalFields (kind : Byte) (s : State) : List Byte :=
  if 0x17 ≤ kind.toNat ∧ kind.toNat ≤ 0x1C then handlingStatus s else []

theorem length_refusalFields_le (kind : Byte) (s : State) : (refusalFields kind s).length ≤ 29 := by
  rw [refusalFields]
  split
  · exact length_handlingStatus_le s
  · exact Nat.zero_le _

/-- A frame that is not read changes nothing (R181). -/
theorem answer_error : answer kind (.error why) s = (s, .refuse why (refusalFields kind s)) := by
  by_cases h : 0x17 ≤ kind.toNat ∧ kind.toNat ≤ 0x1C
  · simp [answer, handlingKind, refusalFields, h, withStatus_refused]
  · simp [answer, handlingKind, refusalFields, h, refused]

/-- A refusal's payload: the status, the reason, and the fields (R200). -/
theorem replyFrame_refuse {fields : List Byte} (short : fields.length ≤ 29) :
    replyFrame kind tag (.refuse why fields) =
      ⟨replyKind kind, tag, [3, BitVec.ofNat 8 why.code] ++ fields⟩ := by
  have payload : (Reply.refuse why fields).payload = [3, BitVec.ofNat 8 why.code] ++ fields := by
    simp [Reply.payload, Reply.refuse, be, Status.code]
  have whole : ([3, BitVec.ofNat 8 why.code] ++ fields).length ≤ Config.payloadTop := by
    simp only [List.length_append, List.length_cons, List.length_nil, Config.payloadTop]
    omega
  rw [replyFrame, payload, List.take_of_length_le whole]

/-- A frame that is dealt with on a free link, with no change and nothing handed on: its reply goes out (R180). -/
theorem finish_serve_unchanged {res : Except Reason Request} {rep : Reply} (quiet : s.reports = [])
    (free : s.lc.free) (e : answer kind res s = (s, rep)) :
    finish (serve kind tag res s) = s.setLc { s.lc with tx := some ⟨.reply, replyFrame kind tag rep⟩ } := by
  obtain ⟨locked, tx, built, -, -, clearing⟩ := free
  let u := s.setLc { s.lc with built := some ⟨.reply, replyFrame kind tag rep⟩ }
  have served : serve kind tag res s = u := by simp [serve, e, clearing, u]
  calc finish (serve kind tag res s) = lcService u := by rw [served]; exact finish_of_nil quiet
    _ = u.setLc { u.lc with tx := some ⟨.reply, replyFrame kind tag rep⟩, built := none } :=
      lcService_of_built locked tx rfl
    _ = s.setLc { s.lc with tx := some ⟨.reply, replyFrame kind tag rep⟩ } := by simp [u, ← built]

/-- A frame that arrives while the link listens and is not read: its refusal goes out (R180, R181). -/
theorem frameRow_refused (hs : s.listens) (fits : p.length ≤ 240)
    (e : decodeRequest kind p = .error why) :
    frameRow dt ⟨kind, tag, p⟩ s = (s.heard dt).setLc
      { (s.heard dt).lc with
        tx := some ⟨.reply,
          ⟨replyKind kind, tag, [3, BitVec.ofNat 8 why.code] ++ refusalFields kind (s.heard dt)⟩⟩ } := by
  obtain ⟨⟨on, quiet⟩, free⟩ := hs
  obtain ⟨locked, tx, built, rx, hold, clearing⟩ := free
  have taken : frameRow dt ⟨kind, tag, p⟩ s = finish (serve kind tag (.error why) (s.heard dt)) := by
    simp [frameRow, whenOn_of_on on, Config.payloadTop, fits, frameIn, State.heard, arrives, Lc.mayTake, locked,
      tx, built, rx, hold, clearing, e]
  rw [taken, finish_serve_unchanged (heard_reports.trans quiet)
    (heard_free ⟨locked, tx, built, rx, hold, clearing⟩) answer_error,
    replyFrame_refuse (length_refusalFields_le ..)]

theorem replyKind_of_unknown (h : unknownKind kind = true) : replyKind kind = 0x80#8 :=
  if_neg (unknownKind_iff.1 h)

theorem replyKind_of_known (h : unknownKind kind = false) : replyKind kind = kind + 0x80#8 :=
  if_pos (by simpa [h] using unknownKind_iff (kind := kind))

end

/-- Settles O9: a frame that is read is its request's; the kind decides whether a frame is of the table; and one
that is not read has its refusal go out. -/
theorem framesAreReadOrRefused : Obligations.FramesAreReadOrRefused := by
  refine ⟨fun kind p r h => ⟨encodeRequest_of_decodeRequest h, requestWf_of_decodeRequest h⟩,
    fun kind p => ⟨decodeRequest_of_unknownKind, decodeRequest_of_knownKind⟩,
    fun dt tag kind p s hs fits => ⟨fun unknown => ⟨?_, rfl⟩, fun bad => ?_⟩⟩
  · have other : refusalFields kind (s.heard dt) = [] :=
      if_neg fun h => unknownKind_iff.1 unknown ⟨by omega, by omega⟩
    have row := frameRow_refused (dt := dt) (tag := tag) hs fits (decodeRequest_of_unknownKind unknown)
    rw [replyKind_of_unknown unknown, other, List.append_nil] at row
    exact congrArg _ row
  · have known : unknownKind kind = false := by
      by_contra unknown
      have e := decodeRequest_of_unknownKind (p := p) (by simpa using unknown)
      cases e.symm.trans bad
    rw [← replyKind_of_known known]
    exact congrArg _ (frameRow_refused hs fits bad)

end Sys2Proof.Machine
end
